-- ==== Sys2Proof/Word.lean ====
section
/-! DEFINITION. The word types: every field of the block is 8 bits wide (00_scope.md section 3), and the input
word of one clock edge is 11 bits (30_encoding.md R40). -/

namespace Sys2Proof

/-- One byte: a wire byte, a logical byte, or the contents of an 8-bit register. -/
abbrev Byte := BitVec 8

/-- The input word of one clock edge, `rst`, `clear`, `in_valid`, `in_byte` from the top (R40). -/
abbrev InputWord := BitVec 11

end Sys2Proof
end

