-- ==== Sys2Proof/Config.lean ====
section
/-! DEFINITION. The build-time configuration (00_scope.md R1 to R5). It is plain data, so that an instance of the
decoder, configuration included (R111), can be written out and compared (log 1, log 2). -/

namespace Sys2Proof

/-- `CRC_STEP` as data (R4). `msbFirst` is the bit loop of R80 under a polynomial. `table` lists the function's
65536 values, entry `256 * c + b` for the arguments `c` and `b`, so every total function of two bytes is one
(`Laws.crcStep_any`). DESIGN CHOICE, safe: log 2. -/
inductive CrcAlg where
  | msbFirst (poly : Byte)
  | table (steps : List Byte)
  deriving DecidableEq, Repr

/-- `CRC_FINAL` as data (R4): an exclusive OR with a constant, or the function's 256 values.
DESIGN CHOICE, safe: log 2. -/
inductive CrcOut where
  | xorOut (v : Byte)
  | table (values : List Byte)
  deriving DecidableEq, Repr

/-- The implementation parameters: `DELIM` (R1), `ESC` (R2), `MAXP` (R3) and the checksum's three (R4). -/
structure Config where
  delim : Byte
  esc : Byte
  maxp : Nat
  crcInit : Byte
  crcAlg : CrcAlg
  crcOut : CrcOut
  deriving DecidableEq, Repr

/-- The admitted configurations: R5's three conditions and the range R3 gives `MAXP`. -/
def Config.admitted (c : Config) : Bool :=
  c.delim != c.esc && c.esc != 0 && c.delim != 0 && decide (c.maxp ≤ 255)

end Sys2Proof
end

