-- ==== Sys2Proof/Machine/Checksum.lean ====
section
/-! DEFINITION. The checksum (42_checksum.md): one step of the accumulator, the compared value, and the fold of R82. -/

namespace Sys2Proof.Machine

/-- One iteration of R80's loop: shift left by one, truncated to 8 bits, and reduce by the polynomial if bit 7 was set. -/
def crcShift (poly v : Byte) : Byte :=
  if v.getLsbD 7 then (v <<< 1) ^^^ poly else v <<< 1

/-- `k` iterations of R80's loop. -/
def crcBits (poly : Byte) : Nat → Byte → Byte
  | 0, v => v
  | k + 1, v => crcBits poly k (crcShift poly v)

/-- `CRC_STEP(acc, b)` of a configuration (R4, R80). -/
def crcStep (c : Config) (acc b : Byte) : Byte :=
  match c.crcAlg with
  | .msbFirst poly => crcBits poly 8 (acc ^^^ b)
  | .table steps => steps.getD (acc.toNat * 256 + b.toNat) 0

/-- `CRC_FINAL(acc)` of a configuration (R4, R80). -/
def crcFinal (c : Config) (acc : Byte) : Byte :=
  match c.crcOut with
  | .xorOut v => acc ^^^ v
  | .table values => values.getD acc.toNat 0

/-- The running integrity value over a list of logical bytes: the fold of `CRC_STEP` from `CRC_INIT` (R82). -/
def crcOver (c : Config) (bytes : List Byte) : Byte :=
  bytes.foldl (crcStep c) c.crcInit

end Sys2Proof.Machine
end

