-- ==== Sys2Proof/Machine/Reference.lean ====
section
/-! DEFINITION. The spec's reference configuration (00_scope.md R1 to R4), the one State.reset is built with. -/

namespace Sys2Proof.Machine

/-- `DELIM = 0x7E`, `ESC = 0x7D`, `MAXP = 8`, CRC-8 MSB-first with polynomial 0x07, initial value 0x00 and no final
exclusive OR (R1 to R4, R80). The values are the spec's reference, not the hardware's: log 1. -/
def referenceConfig : Config where
  delim := 0x7E
  esc := 0x7D
  maxp := 8
  crcInit := 0x00
  crcAlg := .msbFirst 0x07
  crcOut := .xorOut 0x00

end Sys2Proof.Machine
end

