-- ==== Sys2Proof/Syntax.lean ====
section
/-! DEFINITION. The operations of the block: one constructor per row of spec/opcode_table.json, and what a host can
present to the block: the input word of one edge, or a read of an output port. -/

namespace Sys2Proof

/-- One constructor per row of the opcode table. A field row (`cPayload` to `cIdleNoise`) takes the LOGICAL byte
`b` (the operand R61 to R69 name); `cUnescape` takes the wire byte `x` (R52); `cDelim`, `cEscSet` and `cLenZero`
have their byte fixed by the row (log 7). -/
inductive Instr where
  | reset
  | clear
  | idleCycle
  | cDelim
  | cEscSet
  | cUnescape (x : Byte)
  | cPayload (b : Byte)
  | cPayloadLast (b : Byte)
  | cId (b : Byte)
  | cLen (b : Byte)
  | cLenZero
  | cLenOverflow (b : Byte)
  | cChecksumOk (b : Byte)
  | cChecksumBad (b : Byte)
  | cIdleNoise (b : Byte)
  | readId
  | readLength
  | readPayload (addr : Byte)
  | readStatus
  deriving DecidableEq, Repr

/-- One action of the host: present an input word at a clock edge (R40), or read an output port between two edges
(R94 to R97; the read port's address is `pl_addr`, 8 bits, R21). -/
inductive Stimulus where
  | edge (iw : InputWord)
  | readId
  | readLength
  | readPayload (addr : Byte)
  | readStatus
  deriving DecidableEq, Repr

end Sys2Proof
end

