-- ==== Sys2Proof/Machine/State.lean ====
section
/-! DEFINITION. The state of one decoder instance (10_state.md), the reasons a step can stop, and the state after reset. -/

namespace Sys2Proof.Machine

/-- The cursor, the block's only sequencing state (R10). `payload i` says that the next logical byte is `PL[i]`. The
reserved tags of R45 have no constructor (R47). -/
inductive Cursor where
  | idle
  | awaitingId
  | awaitingLength
  | payload (i : Nat)
  | awaitingChecksum
  deriving DecidableEq, Repr

/-- The event of one consume, the contents of `event_q` (R18, R46). -/
inductive Event where
  | none
  | frameOk
  | lenOverflow
  | crcMismatch
  deriving DecidableEq, Repr

/-- The payload buffer as a list of (index, byte) pairs, indices strictly rising. An unlisted cell has not been
written since reset (R20): log 13. -/
abbrev Memory := List Host.Cell

/-- The status ports as READ_STATUS shows them together (R97). -/
structure StatusPorts where
  ready : Bool
  event : BitVec 2
  held : Bool
  esc : Bool
  cursor : BitVec 11
  deriving DecidableEq, Repr

/-- What a data port shows a host read. `written = false` is the report `UNWRITTEN` of R94 to R96: the register or cell
has not been written since reset, and `value` is then no value of the spec's. The report does not end the run: log 4. -/
structure PortRead where
  value : Byte
  written : Bool
  deriving DecidableEq, Repr

/-- What one host read saw (R94 to R97). -/
inductive Sample where
  | id (r : PortRead)
  | length (r : PortRead)
  | payload (r : PortRead)
  | status (p : StatusPorts)
  deriving DecidableEq, Repr

/-- One decoder instance. `cursor` to `eventQ` are the registers of R10 to R18, `idWritten` and `lengthWritten` the
spec's *unwritten* marks (R20). `cfg` is the instance's build-time configuration, which no operation changes (R16,
R111; log 1). `input` and `sampled` are the host's side of the ports: what it will present, and what its last read
saw (log 5, log 6). -/
structure State where
  cfg : Config
  cursor : Cursor
  esc : Bool
  id : Byte
  idWritten : Bool
  length : Byte
  lengthWritten : Bool
  pl : Memory
  crc : Byte
  held : Bool
  eventQ : Event
  input : List Stimulus
  sampled : Option Sample
  deriving DecidableEq, Repr

/-- Why a host read stops. The decoder's own steps never fault (R100). -/
inductive Fault where
  /-- `PL_ADDR_OUT_OF_RANGE`: raised by READ_PAYLOAD where `pl_addr >= MAXP`, an address with no cell (R35, R96).
  Safe: the model shows no value. -/
  | plAddrOutOfRange
  deriving DecidableEq, Repr

/-- Why the model has no meaning. -/
inductive Refusal where
  /-- Raised by an arm of `exec` whose row has no meaning. No arm raises it. Safe. -/
  | notModelled (mnemonic : String)
  /-- Raised by `step` and `instantiate` for a configuration that R5 or R3 does not admit (log 12). Safe. -/
  | configNotAdmitted
  /-- Raised by a consume row's meaning in a state, or on an operand, for which R49 does not select that row (log 8).
  No step raises it in a state that meets `DecoderInv`. Safe. -/
  | operationNotSelected
  deriving DecidableEq, Repr

/-- What an operation answers. -/
abbrev Result := Host.Outcome State Fault Refusal

/-- The state after RESET of an instance built with configuration `c` (R20, R120). The values of `id` and `length`
behind their unwritten marks are a DESIGN CHOICE, unsafe: log 3. -/
def State.resetWith (c : Config) : State where
  cfg := c
  cursor := .idle
  esc := false
  id := 0
  idWritten := false
  length := 0
  lengthWritten := false
  pl := []
  crc := c.crcInit
  held := false
  eventQ := .none
  input := []
  sampled := none

/-- The machine right after reset, built with the spec's reference configuration (R20; R1 to R4). -/
def State.reset : State := State.resetWith referenceConfig

end Sys2Proof.Machine
end

