-- ==== Sys2Proof/Machine/Operands.lean ====
section
/-! DEFINITION. The byte classes and the operand assembly (30_encoding.md section 2): every operand form of the block. -/

namespace Sys2Proof.Machine

/-- The classes of R41: D, E and O. -/
inductive ByteClass where
  | delimiter
  | marker
  | ordinary
  deriving DecidableEq, Repr

/-- The class of a wire byte, on its raw value (R41). -/
def byteClass (c : Config) (x : Byte) : ByteClass :=
  if x = c.delim then .delimiter else if x = c.esc then .marker else .ordinary

/-- The logical byte that wire byte `x` completes: `x ^ ESC` after a prefix, `x` otherwise (R42, R52). -/
def logicalByte (c : Config) (esc : Bool) (x : Byte) : Byte :=
  if esc then x ^^^ c.esc else x

/-- Wire byte `x`, consumed with escape flag `esc`, completes a logical byte: it is neither a delimiter nor a
prefix (R49, lines 4 to 6). -/
def completesByte (c : Config) (esc : Bool) (x : Byte) : Bool :=
  x != c.delim && (esc || x != c.esc)

end Sys2Proof.Machine
end

