-- ==== Sys2Proof/WellFormed.lean ====
section
/-! DEFINITION. Which operations one input word, or one port read, can carry under a configuration (the operand
conditions of R49 that do not read the state). -/

namespace Sys2Proof

/-- The operand checks. A field row carried by ONE input word has a class-O byte: a reserved logical value takes the
two-byte escape form (R42) and arrives through `cUnescape`. -/
def Instr.wellFormed (c : Config) : Instr → Bool
  | .reset => true
  | .clear => true
  | .idleCycle => true
  | .cDelim => true
  | .cEscSet => c.esc != c.delim
  | .cUnescape x => x != c.delim
  | .cPayload b => Machine.byteClass c b == .ordinary
  | .cPayloadLast b => Machine.byteClass c b == .ordinary
  | .cId b => Machine.byteClass c b == .ordinary
  | .cLen b => Machine.byteClass c b == .ordinary && b != 0 && decide (b.toNat ≤ c.maxp)
  | .cLenZero => Machine.byteClass c 0 == .ordinary
  | .cLenOverflow b => Machine.byteClass c b == .ordinary && decide (c.maxp < b.toNat)
  | .cChecksumOk b => Machine.byteClass c b == .ordinary
  | .cChecksumBad b => Machine.byteClass c b == .ordinary
  | .cIdleNoise b => Machine.byteClass c b == .ordinary
  | .readId => true
  | .readLength => true
  | .readPayload _ => true
  | .readStatus => true

end Sys2Proof
end

