-- ==== Sys2Proof/Decode.lean ====
section
/-! DEFINITION. Which operation an input word selects (30_encoding.md R40, R47, R49), and the encoder. Selection reads
the pre-state: nine field rows and C.UNESCAPE share one bit pattern (log 11). -/

namespace Sys2Proof

open Machine

/-- `IW[10]` (R40). -/
def iwRst (iw : InputWord) : Bool := iw.getLsbD 10

/-- `IW[9]` (R40). -/
def iwClear (iw : InputWord) : Bool := iw.getLsbD 9

/-- `IW[8]` (R40). -/
def iwValid (iw : InputWord) : Bool := iw.getLsbD 8

/-- `IW[7:0]` (R40). -/
def iwByte (iw : InputWord) : Byte := iw.extractLsb' 0 8

/-- R49 lines 7 to 15: the field row that logical byte `b` selects. Where `cursor = PAYLOAD(i)` and `i + 1` is not
`length` it is C.PAYLOAD, as R60's `else`; R61's own condition `i + 1 < length` is checked by the row's meaning. -/
def selectField (s : State) (b : Byte) : Instr :=
  match s.cursor with
  | .payload i => if i + 1 = s.length.toNat then .cPayloadLast b else .cPayload b
  | .awaitingId => .cId b
  | .awaitingLength =>
    if s.cfg.maxp < b.toNat then .cLenOverflow b else if b = 0 then .cLenZero else .cLen b
  | .awaitingChecksum => if b = crcFinal s.cfg s.crc then .cChecksumOk b else .cChecksumBad b
  | .idle => .cIdleNoise b

/-- R49 lines 4 to 15: the operation that consuming wire byte `x` selects. -/
def selectByte (s : State) (x : Byte) : Instr :=
  if x = s.cfg.delim then .cDelim
  else if s.esc then .cUnescape x
  else if x = s.cfg.esc then .cEscSet
  else selectField s x

/-- R49: the operation that input word `iw` selects at an edge, in the order `rst`, `clear`, `in_valid` (R106). -/
def selectEdge (s : State) (iw : InputWord) : Instr :=
  if iwRst iw then .reset
  else if iwClear iw then .clear
  else if iwValid iw then selectByte s (iwByte iw)
  else .idleCycle

/-- The operation one host action selects. Total: no input word is illegal (R47). -/
def decode (s : State) : Stimulus → Instr
  | .edge iw => selectEdge s iw
  | .readId => .readId
  | .readLength => .readLength
  | .readPayload addr => .readPayload addr
  | .readStatus => .readStatus

/-- Why two bytes are no input word. -/
inductive DecodeError where
  /-- Fewer than two bytes. -/
  | truncated
  /-- A bit above `IW[10]` is 1: the input word has 11 bits (R40). -/
  | noSuchBit
  deriving DecidableEq, Repr

/-- The input word that two bytes lay out, the low byte first, and the bytes after it. The layout is the model's own
(DESIGN CHOICE, log 10). -/
def inputWordOfBytes : List Byte → Except DecodeError (InputWord × List Byte)
  | lo :: hi :: rest =>
    if hi.toNat < 8 then .ok (BitVec.ofNat 11 (hi.toNat * 256 + lo.toNat), rest) else .error .noSuchBit
  | _ => .error .truncated

/-- Decode bytes: an input word in two bytes, and the operation it selects in state `s`. -/
def decodeBytes (s : State) (bytes : List Byte) : Except DecodeError (Instr × List Byte) :=
  match inputWordOfBytes bytes with
  | .ok (iw, rest) => .ok (selectEdge s iw, rest)
  | .error e => .error e

/-- The bytes of a table word: its low `nbits` bits, two bytes, the low byte first. -/
def tableWordBytes (nbits w : Nat) : List Byte :=
  [BitVec.ofNat 8 (w % 2 ^ nbits), BitVec.ofNat 8 (w % 2 ^ nbits / 256)]

/-- The operation that a word of the opcode table selects AS THE FIRST INPUT AFTER RESET (log 11): rows that differ
only in the state they need share their word. None for a word with a bit above `IW[10]`. -/
def decodeTableWord (nbits w : Nat) : Option Instr :=
  if w % 2 ^ nbits < 65536 then
    match decodeBytes State.reset (tableWordBytes nbits w) with
    | .ok (i, _) => some i
    | .error _ => none
  else none

/-! ## The encoder -/

/-- The input word that consumes wire byte `x`: `rst = 0`, `clear = 0`, `in_valid = 1` (R40). -/
def byteWord (x : Byte) : InputWord := 0b001#3 ++ x

/-- What a host presents for an operation: the words of R40 and the opcode table's match column, with every ignored
bit 0. -/
def encode (c : Config) : Instr → Stimulus
  | .reset => .edge 0x400
  | .clear => .edge 0x200
  | .idleCycle => .edge 0x000
  | .cDelim => .edge (byteWord c.delim)
  | .cEscSet => .edge (byteWord c.esc)
  | .cUnescape x => .edge (byteWord x)
  | .cPayload b => .edge (byteWord b)
  | .cPayloadLast b => .edge (byteWord b)
  | .cId b => .edge (byteWord b)
  | .cLen b => .edge (byteWord b)
  | .cLenZero => .edge (byteWord 0)
  | .cLenOverflow b => .edge (byteWord b)
  | .cChecksumOk b => .edge (byteWord b)
  | .cChecksumBad b => .edge (byteWord b)
  | .cIdleNoise b => .edge (byteWord b)
  | .readId => .readId
  | .readLength => .readLength
  | .readPayload addr => .readPayload addr
  | .readStatus => .readStatus

/-- An input word in bytes, the low byte first (log 10). -/
def inputWordBytes (iw : InputWord) : List Byte :=
  [iwByte iw, BitVec.ofNat 8 (iw.toNat / 256)]

/-! ## The conditions of the operation map, row by row -/

/-- The rows of R49 lines 7 to 15. -/
def Instr.isField : Instr → Bool
  | .cPayload _ | .cPayloadLast _ | .cId _ | .cLen _ | .cLenZero | .cLenOverflow _ => true
  | .cChecksumOk _ | .cChecksumBad _ | .cIdleNoise _ => true
  | .reset | .clear | .idleCycle | .cDelim | .cEscSet | .cUnescape _ => false
  | .readId | .readLength | .readPayload _ | .readStatus => false

/-- The condition on state and operand under which R49 selects the row (its condition column and the operand line of
R50 to R69), given that the input word says so. A field row's condition is on the logical byte. -/
def Instr.enabled (s : State) : Instr → Bool
  | .reset | .clear | .idleCycle | .cDelim => true
  | .cEscSet => !s.esc
  | .cUnescape x => decide (s.esc = true ∧ x ≠ s.cfg.delim)
  | .cPayload _ =>
    match s.cursor with
    | .payload i => decide (i < s.cfg.maxp ∧ i + 1 < s.length.toNat)
    | _ => false
  | .cPayloadLast _ =>
    match s.cursor with
    | .payload i => decide (i < s.cfg.maxp ∧ i + 1 = s.length.toNat)
    | _ => false
  | .cId _ => decide (s.cursor = .awaitingId)
  | .cLen b => decide (s.cursor = .awaitingLength ∧ b ≠ 0 ∧ b.toNat ≤ s.cfg.maxp)
  | .cLenZero => decide (s.cursor = .awaitingLength)
  | .cLenOverflow b => decide (s.cursor = .awaitingLength ∧ s.cfg.maxp < b.toNat)
  | .cChecksumOk b => decide (s.cursor = .awaitingChecksum ∧ b = crcFinal s.cfg s.crc)
  | .cChecksumBad b => decide (s.cursor = .awaitingChecksum ∧ b ≠ crcFinal s.cfg s.crc)
  | .cIdleNoise _ => decide (s.cursor = .idle)
  | .readId | .readLength | .readPayload _ | .readStatus => true

end Sys2Proof
end

