-- ==== Sys2Proof/Machine/Ops.lean ====
section
/-! DEFINITION. The named operations over the payload buffer and the registers (20_memory.md, 10_state.md), the two
error-handling operations of 60_exceptions.md, and the fetch of the host's next action. -/

namespace Sys2Proof.Machine

/-! ## The payload buffer -/

/-- Read one cell; none is a cell not written since reset (R20, R35). -/
def Memory.read : Memory → Nat → Option Byte
  | [], _ => none
  | (k, w) :: rest, a => if k = a then some w else Memory.read rest a

/-- What the read port shows for a cell not written since reset; the read reports it (R96). DESIGN CHOICE, unsafe:
log 13. -/
def Memory.unwrittenByte : Byte := 0x00

/-- Write one cell, keeping the indices rising (R32: one byte, the only width). -/
def Memory.write : Memory → Nat → Byte → Memory
  | [], a, v => [(a, v)]
  | (k, w) :: rest, a, v =>
    if a < k then (a, v) :: (k, w) :: rest
    else if a = k then (a, v) :: rest
    else (k, w) :: Memory.write rest a v

/-- The canonical form: indices strictly rising. Every listed cell differs from an unlisted one, which has no value. -/
def Memory.wf : Memory → Bool
  | [] => true
  | [_] => true
  | p :: q :: rest => decide (p.1 < q.1) && Memory.wf (q :: rest)

/-- The cells `PL[0..n)` that have been written, in index order. -/
def Memory.take (m : Memory) (n : Nat) : List Byte :=
  (List.range n).filterMap (Memory.read m)

/-! ## The registers -/

/-- `emit(E)`, registered at the edge: `event_q <- E` (R90, 00_scope.md section 4). -/
def emit (e : Event) (s : State) : State := { s with eventQ := e }

/-- `cursor <- C`. -/
def setCursor (c : Cursor) (s : State) : State := { s with cursor := c }

/-- `esc <- v`. -/
def setEsc (v : Bool) (s : State) : State := { s with esc := v }

/-- `held <- v`. -/
def setHeld (v : Bool) (s : State) : State := { s with held := v }

/-- `crc <- CRC_INIT` (R83). -/
def restartCrc (s : State) : State := { s with crc := s.cfg.crcInit }

/-- `crc <- CRC_STEP(crc, b)` (R81). -/
def accumulate (b : Byte) (s : State) : State := { s with crc := crcStep s.cfg s.crc b }

/-- `id <- b`; the register is written from here on (R12, R20). -/
def writeId (b : Byte) (s : State) : State := { s with id := b, idWritten := true }

/-- `length <- b`; the register is written from here on (R13, R20). -/
def writeLength (b : Byte) (s : State) : State := { s with length := b, lengthWritten := true }

/-- `PL[i] <- b` (R14, R61, R62). -/
def writePayload (i : Nat) (b : Byte) (s : State) : State := { s with pl := Memory.write s.pl i b }

/-- `id`, `length` and every `PL[i]` become unwritten (R120). The values behind the marks return to those of
`State.resetWith`: DESIGN CHOICE, log 3. -/
def unwriteFields (s : State) : State :=
  { s with id := 0, idWritten := false, length := 0, lengthWritten := false, pl := [] }

/-- What a host read saw (R94 to R97). -/
def setSampled (x : Sample) (s : State) : State := { s with sampled := some x }

/-! ## Errors -/

/-- Error entry (R107): the cursor returns to IDLE and the event is reported; nothing is saved, no mode changes, no
vector is taken. -/
def enterError (e : Event) (s : State) : State := emit e (setCursor .idle s)

/-- The return from an error, and every frame start (R108, R50): AWAITING_ID, no pending escape, a fresh checksum. -/
def startFrame (s : State) : State := emit .none (restartCrc (setEsc false (setCursor .awaitingId s)))

/-! ## Selection, fetch and instantiation -/

/-- A consume row runs only where R49 selects it; elsewhere the spec gives it no effect (log 8). -/
def whenSelected (sel : Prop) [Decidable sel] (t : State) : Result :=
  if sel then .next t else .refused .operationNotSelected

/-- The host's next action. Where it presents nothing, the edge is idle: `rst = clear = in_valid = 0` (log 5). -/
def fetch (s : State) : Stimulus × State :=
  match s.input with
  | [] => (.edge 0x000, s)
  | d :: rest => (d, { s with input := rest })

/-- Build an instance: the state after RESET, for an admitted configuration only (R5, R121, R122). -/
def instantiate (c : Config) : Result :=
  if c.admitted then .next (State.resetWith c) else .refused .configNotAdmitted

end Sys2Proof.Machine
end

