-- ==== Sys2Proof/Machine/FieldDispatch.lean ====
section
/-! DEFINITION. The field rows (41_field_dispatch.md R61 to R69): steps 3 and 4 of a consume, on the logical byte. -/

namespace Sys2Proof.Machine

/-- C.PAYLOAD (R61). The index range `i < MAXP` is R10's. -/
def execCPayload (b : Byte) (s : State) : Result :=
  match s.cursor with
  | .payload i =>
    whenSelected (i < s.cfg.maxp ∧ i + 1 < s.length.toNat)
      (emit .none (setCursor (.payload (i + 1)) (accumulate b (writePayload i b s))))
  | _ => .refused .operationNotSelected

/-- C.PAYLOAD_LAST (R62). -/
def execCPayloadLast (b : Byte) (s : State) : Result :=
  match s.cursor with
  | .payload i =>
    whenSelected (i < s.cfg.maxp ∧ i + 1 = s.length.toNat)
      (emit .none (setCursor .awaitingChecksum (accumulate b (writePayload i b s))))
  | _ => .refused .operationNotSelected

/-- C.ID (R63). -/
def execCId (b : Byte) (s : State) : Result :=
  whenSelected (s.cursor = .awaitingId)
    (emit .none (setCursor .awaitingLength (accumulate b (setHeld false (writeId b s)))))

/-- C.LEN (R64). -/
def execCLen (b : Byte) (s : State) : Result :=
  whenSelected (s.cursor = .awaitingLength ∧ b ≠ 0 ∧ b.toNat ≤ s.cfg.maxp)
    (emit .none (setCursor (.payload 0) (accumulate b (writeLength b s))))

/-- C.LEN_ZERO (R65): straight to the checksum, no payload cell is written (C3). -/
def execCLenZero (s : State) : Result :=
  whenSelected (s.cursor = .awaitingLength)
    (emit .none (setCursor .awaitingChecksum (accumulate 0 (writeLength 0 s))))

/-- C.LEN_OVERFLOW (R66): `length` and `crc` stay. -/
def execCLenOverflow (b : Byte) (s : State) : Result :=
  whenSelected (s.cursor = .awaitingLength ∧ s.cfg.maxp < b.toNat)
    (enterError .lenOverflow s)

/-- C.CHECKSUM_OK (R67): the checksum byte is not accumulated. -/
def execCChecksumOk (b : Byte) (s : State) : Result :=
  whenSelected (s.cursor = .awaitingChecksum ∧ b = crcFinal s.cfg s.crc)
    (emit .frameOk (setCursor .idle (setHeld true s)))

/-- C.CHECKSUM_BAD (R68): the fields keep the received frame, `held` is set, the error event is reported. -/
def execCChecksumBad (b : Byte) (s : State) : Result :=
  whenSelected (s.cursor = .awaitingChecksum ∧ b ≠ crcFinal s.cfg s.crc)
    (enterError .crcMismatch (setHeld true s))

/-- C.IDLE_NOISE (R69): whatever the byte is. -/
def execCIdleNoise (_b : Byte) (s : State) : Result :=
  whenSelected (s.cursor = .idle) (emit .none s)

/-- `DISPATCH(s, b)` of R60: the field row that the cursor and the logical byte select. -/
def dispatchField (b : Byte) (s : State) : Result :=
  match s.cursor with
  | .payload i => if i + 1 = s.length.toNat then execCPayloadLast b s else execCPayload b s
  | .awaitingId => execCId b s
  | .awaitingLength =>
    if s.cfg.maxp < b.toNat then execCLenOverflow b s
    else if b = 0 then execCLenZero s
    else execCLen b s
  | .awaitingChecksum =>
    if b = crcFinal s.cfg s.crc then execCChecksumOk b s else execCChecksumBad b s
  | .idle => execCIdleNoise b s

end Sys2Proof.Machine
end

