-- ==== Sys2Proof/Machine/Delimiter.lean ====
section
/-! DEFINITION. Delimiter and escape handling (40_delimiter_escape.md R50 to R53). -/

namespace Sys2Proof.Machine

/-- C.DELIM (R50): from any cursor and any escape flag. -/
def execCDelim (s : State) : Result :=
  .next (startFrame s)

/-- C.ESC_SET (R51): only with no prefix pending. -/
def execCEscSet (s : State) : Result :=
  whenSelected (s.esc = false) (emit .none (setEsc true s))

/-- C.UNESCAPE (R52): the flag is cleared, then the field row of the recovered byte `x ^ ESC` runs. -/
def execCUnescape (x : Byte) (s : State) : Result :=
  if s.esc = true ∧ x ≠ s.cfg.delim then
    dispatchField (logicalByte s.cfg s.esc x) (setEsc false s)
  else .refused .operationNotSelected

end Sys2Proof.Machine
end

