-- ==== Sys2Proof/Machine/Flags.lean ====
section
/-! DEFINITION. The encodings of what the status ports show (30_encoding.md R45, R46). -/

namespace Sys2Proof.Machine

/-- The 2-bit code of an event (R46). -/
def eventCode : Event → BitVec 2
  | .none => 0b00
  | .frameOk => 0b01
  | .lenOverflow => 0b10
  | .crcMismatch => 0b11

/-- Bit 0 of the event, the source's "frame complete" (R18, R46). -/
def readyBit (e : Event) : Bool := (eventCode e).getLsbD 0

/-- Bit 1 of the event, the source's error signal (R46). -/
def errorBit (e : Event) : Bool := (eventCode e).getLsbD 1

/-- The tag of the cursor (R45). -/
def cursorTag : Cursor → BitVec 3
  | .idle => 0b000
  | .awaitingId => 0b001
  | .awaitingLength => 0b010
  | .payload _ => 0b011
  | .awaitingChecksum => 0b100

/-- The index field of the cursor (R45). -/
def cursorIndex : Cursor → Byte
  | .payload i => BitVec.ofNat 8 i
  | .idle | .awaitingId | .awaitingLength | .awaitingChecksum => 0

/-- `out_cursor`, tag above index (R45). -/
def cursorCode (c : Cursor) : BitVec 11 := cursorTag c ++ cursorIndex c

end Sys2Proof.Machine
end

