-- ==== Sys2Proof/Machine/Ports.lean ====
section
/-! DEFINITION. The output ports, combinational functions of the registers (10_state.md R22; 43_interface_ops.md
section 2). -/

namespace Sys2Proof.Machine

/-- `out_ready` (R97). -/
def outReady (s : State) : Bool := readyBit s.eventQ

/-- `out_event` (R97). -/
def outEvent (s : State) : BitVec 2 := eventCode s.eventQ

/-- `out_held` (R97). -/
def outHeld (s : State) : Bool := s.held

/-- `out_esc` (R97). -/
def outEsc (s : State) : Bool := s.esc

/-- `out_cursor` (R97). -/
def outCursor (s : State) : BitVec 11 := cursorCode s.cursor

/-- `out_id`, reported UNWRITTEN until written since reset (R94). -/
def outId (s : State) : PortRead := ⟨s.id, s.idWritten⟩

/-- `out_length`, reported UNWRITTEN until written since reset (R95). -/
def outLength (s : State) : PortRead := ⟨s.length, s.lengthWritten⟩

/-- `PL[a]` as the read port shows it, reported UNWRITTEN until written since reset (R96). -/
def outCell (m : Memory) (a : Nat) : PortRead :=
  match Memory.read m a with
  | some v => ⟨v, true⟩
  | none => ⟨Memory.unwrittenByte, false⟩

/-- `pl_data` at `pl_addr`; an address with no cell faults (R96, R35). -/
def plData (s : State) (addr : Byte) : Except Fault PortRead :=
  if s.cfg.maxp ≤ addr.toNat then .error .plAddrOutOfRange else .ok (outCell s.pl addr.toNat)

/-- The status ports together (R97). -/
def statusPorts (s : State) : StatusPorts where
  ready := outReady s
  event := outEvent s
  held := outHeld s
  esc := outEsc s
  cursor := outCursor s

end Sys2Proof.Machine
end

