-- ==== Sys2Proof/Machine/HostReads.lean ====
section
/-! DEFINITION. The host's reads (43_interface_ops.md R94 to R97). A read takes no edge and changes no register (R34);
what the host saw is recorded on the host's side (log 6). -/

namespace Sys2Proof.Machine

/-- The host sees `x`, and the machine goes on. -/
def answerRead (x : Sample) (s : State) : Result := .next (setSampled x s)

/-- READ_ID (R94): answers in every state. -/
def execReadId (s : State) : Result := answerRead (.id (outId s)) s

/-- READ_LENGTH (R95): answers in every state. -/
def execReadLength (s : State) : Result := answerRead (.length (outLength s)) s

/-- READ_PAYLOAD at `pl_addr` (R96): faults only where there is no cell (R35). -/
def execReadPayload (addr : Byte) (s : State) : Result :=
  match plData s addr with
  | .ok r => answerRead (.payload r) s
  | .error f => .fault f

/-- READ_STATUS (R97): never faults. -/
def execReadStatus (s : State) : Result := answerRead (.status (statusPorts s)) s

end Sys2Proof.Machine
end

