-- ==== Sys2Proof/Machine/Interface.lean ====
section
/-! DEFINITION. The edge operations that consume no byte: RESET (70_reset_and_hazards.md), CLEAR and IDLE_CYCLE
(43_interface_ops.md). -/

namespace Sys2Proof.Machine

/-- RESET (R120). -/
def execReset (s : State) : Result :=
  .next (unwriteFields (emit .none (setHeld false (restartCrc (setEsc false (setCursor .idle s))))))

/-- CLEAR (R92): no field is written, and a byte at the same edge is dropped (R127). -/
def execClear (s : State) : Result :=
  .next (emit .none (restartCrc (setEsc false (setCursor .idle s))))

/-- IDLE_CYCLE (R91). -/
def execIdleCycle (s : State) : Result :=
  .next (emit .none s)

end Sys2Proof.Machine
end

