-- ==== Sys2Proof/Machine/Dispatch.lean ====
section
/-! DEFINITION. One arm per operation of the opcode table. -/

namespace Sys2Proof.Machine

/-- The meaning of one operation. -/
def exec (i : Instr) (s : State) : Host.Outcome State Fault Refusal :=
  match i with
  | .reset => Sys2Proof.Machine.execReset s
  | .clear => Sys2Proof.Machine.execClear s
  | .idleCycle => Sys2Proof.Machine.execIdleCycle s
  | .cDelim => Sys2Proof.Machine.execCDelim s
  | .cEscSet => Sys2Proof.Machine.execCEscSet s
  | .cUnescape x => Sys2Proof.Machine.execCUnescape x s
  | .cPayload b => Sys2Proof.Machine.execCPayload b s
  | .cPayloadLast b => Sys2Proof.Machine.execCPayloadLast b s
  | .cId b => Sys2Proof.Machine.execCId b s
  | .cLen b => Sys2Proof.Machine.execCLen b s
  | .cLenZero => Sys2Proof.Machine.execCLenZero s
  | .cLenOverflow b => Sys2Proof.Machine.execCLenOverflow b s
  | .cChecksumOk b => Sys2Proof.Machine.execCChecksumOk b s
  | .cChecksumBad b => Sys2Proof.Machine.execCChecksumBad b s
  | .cIdleNoise b => Sys2Proof.Machine.execCIdleNoise b s
  | .readId => Sys2Proof.Machine.execReadId s
  | .readLength => Sys2Proof.Machine.execReadLength s
  | .readPayload addr => Sys2Proof.Machine.execReadPayload addr s
  | .readStatus => Sys2Proof.Machine.execReadStatus s

end Sys2Proof.Machine
end

