-- ==== Sys2Proof/Machine/Step.lean ====
section
/-! DEFINITION. One step: the host's next action, and the operation it selects (43_interface_ops.md R90). -/

namespace Sys2Proof.Machine

/-- `s` with an input word of the opcode table's numbering presented next. A word with a bit above `IW[10]` is no
input word (R40) and leaves `s` as it is. The pre-state picks the row (R49), and the pre-state stays (log 11). -/
def State.withFetchWord (s : State) (nbits w : Nat) : State :=
  if w % 2 ^ nbits < 2048 then
    { s with input := .edge (BitVec.ofNat 11 (w % 2 ^ nbits)) :: s.input }
  else s

/-- One step of an instance with an admitted configuration: take the host's next action, select the operation in the
state the action finds (R49), and run it. One step is one clock edge (R90), or one host read between two edges. -/
def step (s : State) : Host.Outcome State Fault Refusal :=
  if s.cfg.admitted then
    exec (decode (fetch s).2 (fetch s).1) (fetch s).2
  else .refused .configNotAdmitted

end Sys2Proof.Machine
end

