-- ==== Sys2Proof/Machine/Consume.lean ====
section
/-! DEFINITION. The transaction view: the consume function of 41_field_dispatch.md R60 written as R60 writes it, one
function of a state and a wire byte, and its fold over a stream (43_interface_ops.md R93). `step` does not use it: it
runs the operation map of R49. That the two agree is a claim. -/

namespace Sys2Proof.Machine

/-- `DISPATCH(s, b)` of R60. -/
def fieldConsume (s : State) (b : Byte) : State × Event :=
  match s.cursor with
  | .payload i =>
    ({ s with
        pl := Memory.write s.pl i b
        crc := crcStep s.cfg s.crc b
        cursor := if i + 1 = s.length.toNat then .awaitingChecksum else .payload (i + 1) }, .none)
  | .awaitingId =>
    ({ s with id := b, idWritten := true, held := false, crc := crcStep s.cfg s.crc b, cursor := .awaitingLength },
      .none)
  | .awaitingLength =>
    if s.cfg.maxp < b.toNat then ({ s with cursor := .idle }, .lenOverflow)
    else
      ({ s with
          length := b
          lengthWritten := true
          crc := crcStep s.cfg s.crc b
          cursor := if b = 0 then .awaitingChecksum else .payload 0 }, .none)
  | .awaitingChecksum =>
    ({ s with held := true, cursor := .idle }, if b = crcFinal s.cfg s.crc then .frameOk else .crcMismatch)
  | .idle => (s, .none)

/-- `CONSUME(s, x)` of R60: steps 1 to 4. -/
def consume (s : State) (x : Byte) : State × Event :=
  if x = s.cfg.delim then
    ({ s with cursor := .awaitingId, esc := false, crc := s.cfg.crcInit }, .none)
  else if s.esc then fieldConsume { s with esc := false } (x ^^^ s.cfg.esc)
  else if x = s.cfg.esc then ({ s with esc := true }, .none)
  else fieldConsume s x

/-- The state after a stream of wire bytes, `event_q` aside (R93). -/
def consumeAll (s : State) (xs : List Byte) : State :=
  xs.foldl (fun t x => (consume t x).1) s

end Sys2Proof.Machine
end

