-- ==== Sys2Proof/Machine/Wire.lean ====
section
/-! DEFINITION. The wire grammar and the stream notation (30_encoding.md R43, R44, R48). They describe what a conforming
sender puts on the wire; the sender's hardware is out of scope (00_scope.md section 2). -/

namespace Sys2Proof.Machine

/-- `stuff(v)` (R43): the escape form of a reserved value, the value itself otherwise. -/
def stuff (c : Config) (v : Byte) : List Byte :=
  if v = c.delim ∨ v = c.esc then [c.esc, v ^^^ c.esc] else [v]

/-- The logical bytes of a frame that the checksum covers (R82): id, length, payload. -/
def coveredBytes (id : Byte) (payload : List Byte) : List Byte :=
  id :: BitVec.ofNat 8 payload.length :: payload

/-- The checksum byte of a valid frame (R44, R82). -/
def frameChecksum (c : Config) (id : Byte) (payload : List Byte) : Byte :=
  crcFinal c (crcOver c (coveredBytes id payload))

/-- `FRAME(I; p0, ..., p(n-1); K=k)` (R48): the wire bytes with the checksum byte given. -/
def frameWith (c : Config) (id : Byte) (payload : List Byte) (k : Byte) : List Byte :=
  c.delim :: (coveredBytes id payload ++ [k]).flatMap (stuff c)

/-- `FRAME(I; p0, ..., p(n-1))` (R44, R48): the wire bytes of a valid frame. -/
def frame (c : Config) (id : Byte) (payload : List Byte) : List Byte :=
  frameWith c id payload (frameChecksum c id payload)

/-- `HDR(I; L)` (R48). -/
def frameHeader (c : Config) (id len : Byte) : List Byte :=
  c.delim :: (stuff c id ++ stuff c len)

/-- Wire bytes as edges, one byte an edge (R90). NOISE of R48 is this, of any bytes. -/
def byteEdges (xs : List Byte) : List Stimulus := xs.map fun x => .edge (byteWord x)

/-- `CLEAR` of R48: one edge with `clear = 1`. -/
def clearEdge : Stimulus := .edge 0x200

/-- `IDLECYC` of R48: one edge with `in_valid = 0`. -/
def idleEdge : Stimulus := .edge 0x000

end Sys2Proof.Machine
end

