-- ==== Sys2Proof/Safety.lean ====
section
/-! DEFINITION. What the claims are stated in: the reachable-state invariants (10_state.md R19, 42_checksum.md R82), the
held packet (R17, R38), what an edge presents, what a store changes, and the spec's printed CRC table. -/

namespace Sys2Proof.Machine

/-- `PL[0..n)` have each been written since reset. -/
def cellsWritten (s : State) (n : Nat) : Prop :=
  ∀ a, a < n → (Memory.read s.pl a).isSome = true

/-- The logical bytes the checksum has covered when `n` payload bytes of the frame have arrived (R82). -/
def receivedBytes (s : State) (n : Nat) : List Byte :=
  s.id :: s.length :: Memory.take s.pl n

/-- What the cursor says of the frame in progress (R19 (b), (c); R82; R63 corner case 3). -/
def FrameInv (s : State) : Prop :=
  match s.cursor with
  | .idle => True
  | .awaitingId => s.crc = s.cfg.crcInit
  | .awaitingLength => s.idWritten = true ∧ s.crc = crcOver s.cfg [s.id]
  | .payload i =>
    s.idWritten = true ∧ s.lengthWritten = true ∧ i < s.length.toNat ∧ cellsWritten s i ∧
      s.crc = crcOver s.cfg (receivedBytes s i)
  | .awaitingChecksum =>
    s.idWritten = true ∧ s.lengthWritten = true ∧ cellsWritten s s.length.toNat ∧
      s.crc = crcOver s.cfg (receivedBytes s s.length.toNat)

/-- What `held = 1` says (R19 (d)). -/
def HeldInv (s : State) : Prop :=
  s.held = true →
    (s.cursor = .idle ∨ s.cursor = .awaitingId) ∧ s.idWritten = true ∧ s.lengthWritten = true ∧
      cellsWritten s s.length.toNat

/-- The invariant of a decoder instance: the configuration is admitted (R5), the payload buffer is in canonical form
and inside its address space (R30), `length` is at most `MAXP` (R19 (a)), and what the cursor and `held` say holds. -/
structure DecoderInv (s : State) : Prop where
  config : s.cfg.admitted = true
  bufferForm : Memory.wf s.pl = true
  bufferBound : ∀ a, s.cfg.maxp ≤ a → Memory.read s.pl a = none
  lengthBound : s.lengthWritten = true → s.length.toNat ≤ s.cfg.maxp
  frame : FrameInv s
  heldFrame : HeldInv s

/-- A received packet. -/
structure Packet where
  id : Byte
  payload : List Byte
  deriving DecidableEq, Repr

/-- The held packet: `id` and `PL[0..length)` while `held = 1` (R17). A claim about a received packet reads it here
only, never with `held = 0` (R38). -/
def heldPacket (s : State) : Option Packet :=
  if s.held then some ⟨s.id, Memory.take s.pl s.length.toNat⟩ else none

/-- The next edge consumes a wire byte that completes logical byte `b`, raw or after a prefix, and `rest` is what the
host presents after it (R40, R42, R49). -/
def PresentsByte (s : State) (rest : List Stimulus) (b : Byte) : Prop :=
  s.cfg.admitted = true ∧
    ∃ x, s.input = .edge (byteWord x) :: rest ∧ completesByte s.cfg s.esc x = true ∧
      logicalByte s.cfg s.esc x = b

/-- Buffer `m'` is buffer `m` with cell `i` holding `b`: that cell reads `b`, and every other cell reads as before. -/
def StoresCell (m m' : Memory) (i : Nat) (b : Byte) : Prop :=
  Memory.read m' i = some b ∧ ∀ a, a ≠ i → Memory.read m' a = Memory.read m a

/-- A read without the value that it reports UNWRITTEN: such a register or cell has no value (R20). -/
def PortRead.hide (r : PortRead) : PortRead := if r.written then r else ⟨0, false⟩

/-- A sample without a value that is reported UNWRITTEN. -/
def Sample.hide : Sample → Sample
  | .id r => .id r.hide
  | .length r => .length r.hide
  | .payload r => .payload r.hide
  | .status p => .status p

/-- The states agree on everything but the values behind an unwritten mark of `id` or `length` (R20, log 3), in the
registers and in what the last read showed. -/
def SameButUnwritten (s t : State) : Prop :=
  t = { s with id := t.id, length := t.length, sampled := t.sampled } ∧
    (s.idWritten = true → t.id = s.id) ∧ (s.lengthWritten = true → t.length = s.length) ∧
    t.sampled.map Sample.hide = s.sampled.map Sample.hide

/-- The reference CRC table `T` of 42_checksum.md section 1, entry by entry as printed there. -/
def referenceCrcTable : List Byte :=
  [0x00, 0x07, 0x0E, 0x09, 0x1C, 0x1B, 0x12, 0x15, 0x38, 0x3F, 0x36, 0x31, 0x24, 0x23, 0x2A, 0x2D] ++
  [0x70, 0x77, 0x7E, 0x79, 0x6C, 0x6B, 0x62, 0x65, 0x48, 0x4F, 0x46, 0x41, 0x54, 0x53, 0x5A, 0x5D] ++
  [0xE0, 0xE7, 0xEE, 0xE9, 0xFC, 0xFB, 0xF2, 0xF5, 0xD8, 0xDF, 0xD6, 0xD1, 0xC4, 0xC3, 0xCA, 0xCD] ++
  [0x90, 0x97, 0x9E, 0x99, 0x8C, 0x8B, 0x82, 0x85, 0xA8, 0xAF, 0xA6, 0xA1, 0xB4, 0xB3, 0xBA, 0xBD] ++
  [0xC7, 0xC0, 0xC9, 0xCE, 0xDB, 0xDC, 0xD5, 0xD2, 0xFF, 0xF8, 0xF1, 0xF6, 0xE3, 0xE4, 0xED, 0xEA] ++
  [0xB7, 0xB0, 0xB9, 0xBE, 0xAB, 0xAC, 0xA5, 0xA2, 0x8F, 0x88, 0x81, 0x86, 0x93, 0x94, 0x9D, 0x9A] ++
  [0x27, 0x20, 0x29, 0x2E, 0x3B, 0x3C, 0x35, 0x32, 0x1F, 0x18, 0x11, 0x16, 0x03, 0x04, 0x0D, 0x0A] ++
  [0x57, 0x50, 0x59, 0x5E, 0x4B, 0x4C, 0x45, 0x42, 0x6F, 0x68, 0x61, 0x66, 0x73, 0x74, 0x7D, 0x7A] ++
  [0x89, 0x8E, 0x87, 0x80, 0x95, 0x92, 0x9B, 0x9C, 0xB1, 0xB6, 0xBF, 0xB8, 0xAD, 0xAA, 0xA3, 0xA4] ++
  [0xF9, 0xFE, 0xF7, 0xF0, 0xE5, 0xE2, 0xEB, 0xEC, 0xC1, 0xC6, 0xCF, 0xC8, 0xDD, 0xDA, 0xD3, 0xD4] ++
  [0x69, 0x6E, 0x67, 0x60, 0x75, 0x72, 0x7B, 0x7C, 0x51, 0x56, 0x5F, 0x58, 0x4D, 0x4A, 0x43, 0x44] ++
  [0x19, 0x1E, 0x17, 0x10, 0x05, 0x02, 0x0B, 0x0C, 0x21, 0x26, 0x2F, 0x28, 0x3D, 0x3A, 0x33, 0x34] ++
  [0x4E, 0x49, 0x40, 0x47, 0x52, 0x55, 0x5C, 0x5B, 0x76, 0x71, 0x78, 0x7F, 0x6A, 0x6D, 0x64, 0x63] ++
  [0x3E, 0x39, 0x30, 0x37, 0x22, 0x25, 0x2C, 0x2B, 0x06, 0x01, 0x08, 0x0F, 0x1A, 0x1D, 0x14, 0x13] ++
  [0xAE, 0xA9, 0xA0, 0xA7, 0xB2, 0xB5, 0xBC, 0xBB, 0x96, 0x91, 0x98, 0x9F, 0x8A, 0x8D, 0x84, 0x83] ++
  [0xDE, 0xD9, 0xD0, 0xD7, 0xC2, 0xC5, 0xCC, 0xCB, 0xE6, 0xE1, 0xE8, 0xEF, 0xFA, 0xFD, 0xF4, 0xF3]

end Sys2Proof.Machine
end

