-- ==== Sys2Proof/Certificates/Slice0/Obligations.lean ====
section
/-! DEFINITION. The statements for the provers, in the order of OBLIGATIONS.json. A statement about a consume row says
what `exec` answers for the row and what `step` answers when the next edge presents its byte. -/

open Sys2Proof Sys2Proof.Machine

/-! ## The step -/

/-- R90: a step of an admitted instance is the operation that the host's next action selects, run in the state with
that action taken off the queue; with nothing presented it is an idle cycle (the queue is the model's: log 5). -/
def Obligations.StepRunsDecodedOperation : Prop :=
  ∀ s : State, s.cfg.admitted = true →
    (∀ d rest, s.input = d :: rest →
      step s = exec (decode { s with input := rest } d) { s with input := rest }) ∧
    (s.input = [] → step s = exec .idleCycle s)

/-- R5, with the range R3 gives `MAXP`: an instance is built for an admitted configuration and for no other, and an
instance of any other configuration makes no step (the spec's decision D18; refusing `MAXP` above 255 is the model's
reading of R3: log 12). -/
def Obligations.OnlyAdmittedConfigurationsRun : Prop :=
  ∀ c : Config,
    ((c.delim ≠ c.esc ∧ c.esc ≠ 0 ∧ c.delim ≠ 0 ∧ c.maxp ≤ 255) →
      instantiate c = .next (State.resetWith c)) ∧
    (¬ (c.delim ≠ c.esc ∧ c.esc ≠ 0 ∧ c.delim ≠ 0 ∧ c.maxp ≤ 255) →
      instantiate c = .refused .configNotAdmitted ∧
      ∀ s : State, s.cfg = c → step s = .refused .configNotAdmitted)

/-- R49: lines 1 to 6 of the operation map, and, of lines 7 to 15, exactly one applies to each logical byte in each
state that meets the invariant, the one that decoding gives (the spec infers R49 from R60). -/
def Obligations.OperationMapSelectsOneRow : Prop :=
  (∀ (s : State) (iw : InputWord), iw.getLsbD 10 = true → decode s (.edge iw) = .reset) ∧
  (∀ (s : State) (iw : InputWord), iw.getLsbD 10 = false → iw.getLsbD 9 = true →
    decode s (.edge iw) = .clear) ∧
  (∀ (s : State) (iw : InputWord), iw.getLsbD 10 = false → iw.getLsbD 9 = false → iw.getLsbD 8 = false →
    decode s (.edge iw) = .idleCycle) ∧
  (∀ s : State, decode s (.edge (byteWord s.cfg.delim)) = .cDelim) ∧
  (∀ (s : State) (x : Byte), x ≠ s.cfg.delim → s.esc = false → x = s.cfg.esc →
    decode s (.edge (byteWord x)) = .cEscSet) ∧
  (∀ (s : State) (x : Byte), x ≠ s.cfg.delim → s.esc = true →
    decode s (.edge (byteWord x)) = .cUnescape x) ∧
  (∀ (s : State) (x : Byte), x ≠ s.cfg.delim → s.esc = false → x ≠ s.cfg.esc →
    decode s (.edge (byteWord x)) = selectField s x) ∧
  (∀ (s : State) (b : Byte) (i : Instr), DecoderInv s →
    i ∈ [Instr.cPayload b, .cPayloadLast b, .cId b, .cLen b, .cLenZero, .cLenOverflow b, .cChecksumOk b,
      .cChecksumBad b, .cIdleNoise b] →
    ((i.enabled s = true ∧ (i = .cLenZero → b = 0)) ↔ i = selectField s b))

/-- R47, R49: in a state that meets the invariant a row is refused where R49 does not select it, and nowhere else
(the refusal is the model's: log 8). -/
def Obligations.RowIsRefusedExactlyWhereNotSelected : Prop :=
  ∀ (s : State) (i : Instr), DecoderInv s →
    (exec i s = .refused .operationNotSelected ↔ i.enabled s = false)

/-! ## The interface operations -/

/-- R120: RESET, by `exec` and at any edge with `rst = 1`, whatever the other bits are. The configuration stays (R16).
Afterwards every read of `id`, `length` or a payload cell reports UNWRITTEN: R120 words a fault in the model, and that
the read answers with a report instead, so that the run goes on, is the model's (log 4). The host's side, `input` and
`sampled`, is the model's too (log 5, log 6), and this statement says nothing of `sampled`. -/
def Obligations.ResetUnwritesFieldsAndIdles : Prop :=
  ∀ s : State,
    (∃ t, exec .reset s = .next t ∧
      (∀ (iw : InputWord) (rest : List Stimulus), s.cfg.admitted = true → s.input = .edge iw :: rest →
        iw.getLsbD 10 = true → step s = .next { t with input := rest }) ∧
      t.cursor = .idle ∧ t.esc = false ∧ t.crc = s.cfg.crcInit ∧ t.held = false ∧ t.eventQ = .none ∧
      (outId t).written = false ∧ (outLength t).written = false ∧
      (∀ a : Byte, a.toNat < s.cfg.maxp → ∃ r, plData t a = .ok r ∧ r.written = false) ∧
      t.cfg = s.cfg)

/-- R92: CLEAR, by `exec` and at any edge with `rst = 0` and `clear = 1`, whatever the byte; everything it does not
name stays, `held` and the fields among it. -/
def Obligations.ClearAbandonsFrameAndKeepsFields : Prop :=
  ∀ s : State,
    exec .clear s =
      .next { s with cursor := .idle, esc := false, crc := s.cfg.crcInit, eventQ := .none } ∧
    ∀ (iw : InputWord) (rest : List Stimulus), s.cfg.admitted = true → s.input = .edge iw :: rest →
      iw.getLsbD 10 = false → iw.getLsbD 9 = true →
      step s = .next
        { s with input := rest, cursor := .idle, esc := false, crc := s.cfg.crcInit, eventQ := .none }

/-- R91: IDLE_CYCLE writes `event_q` only, at any edge with `rst = clear = in_valid = 0`, whatever the byte. -/
def Obligations.IdleCycleOnlyEndsEvent : Prop :=
  ∀ s : State,
    exec .idleCycle s = .next { s with eventQ := .none } ∧
    ∀ (iw : InputWord) (rest : List Stimulus), s.cfg.admitted = true → s.input = .edge iw :: rest →
      iw.getLsbD 10 = false → iw.getLsbD 9 = false → iw.getLsbD 8 = false →
      step s = .next { s with input := rest, eventQ := .none }

/-! ## Delimiter and escape -/

/-- R50: a delimiter starts a frame from any cursor and any escape flag, and writes no field. -/
def Obligations.DelimiterStartsFrame : Prop :=
  ∀ s : State,
    exec .cDelim s =
      .next { s with cursor := .awaitingId, esc := false, crc := s.cfg.crcInit, eventQ := .none } ∧
    ∀ rest : List Stimulus, s.cfg.admitted = true → s.input = .edge (byteWord s.cfg.delim) :: rest →
      step s = .next
        { s with
          input := rest, cursor := .awaitingId, esc := false, crc := s.cfg.crcInit, eventQ := .none }

/-- R51: an escape marker with no prefix pending sets `esc` and nothing else, in every cursor. -/
def Obligations.EscapeMarkerSetsFlag : Prop :=
  ∀ s : State, s.esc = false →
    exec .cEscSet s = .next { s with esc := true, eventQ := .none } ∧
    ∀ rest : List Stimulus, s.cfg.admitted = true → s.input = .edge (byteWord s.cfg.esc) :: rest →
      step s = .next { s with input := rest, esc := true, eventQ := .none }

/-- R52: with a prefix pending, a byte that is no delimiter clears `esc` and runs the field row of `x ^ ESC`; in a
state that meets the invariant it completes, and `esc` is 0 afterwards. -/
def Obligations.UnescapeRunsFieldRowOfRecoveredByte : Prop :=
  ∀ (s : State) (x : Byte), DecoderInv s → s.esc = true → x ≠ s.cfg.delim →
    (∃ t, exec (.cUnescape x) s = .next t ∧ t.esc = false ∧
      exec (selectField s (x ^^^ s.cfg.esc)) { s with esc := false } = .next t) ∧
    ∀ rest : List Stimulus, s.input = .edge (byteWord x) :: rest →
      step s = exec (selectField s (x ^^^ s.cfg.esc)) { s with input := rest, esc := false }

/-! ## The field rows -/

/-- R61: a payload byte that is not the last is stored in `PL[i]`, enters the checksum and advances the cursor by one. -/
def Obligations.PayloadByteIsStoredAndCounted : Prop :=
  ∀ (s : State) (b : Byte) (i : Nat), s.cursor = .payload i → i < s.cfg.maxp → i + 1 < s.length.toNat →
    ∃ m, StoresCell s.pl m i b ∧
      exec (.cPayload b) s =
        .next { s with pl := m, crc := crcStep s.cfg s.crc b, cursor := .payload (i + 1), eventQ := .none } ∧
      ∀ rest : List Stimulus, PresentsByte s rest b →
        step s = .next
          { s with
            input := rest, esc := false, pl := m, crc := crcStep s.cfg s.crc b,
            cursor := .payload (i + 1), eventQ := .none }

/-- R62: the last payload byte is stored in `PL[i]`, enters the checksum, and the checksum byte is next. -/
def Obligations.LastPayloadByteLeadsToChecksum : Prop :=
  ∀ (s : State) (b : Byte) (i : Nat), s.cursor = .payload i → i < s.cfg.maxp → i + 1 = s.length.toNat →
    ∃ m, StoresCell s.pl m i b ∧
      exec (.cPayloadLast b) s =
        .next { s with pl := m, crc := crcStep s.cfg s.crc b, cursor := .awaitingChecksum, eventQ := .none } ∧
      ∀ rest : List Stimulus, PresentsByte s rest b →
        step s = .next
          { s with
            input := rest, esc := false, pl := m, crc := crcStep s.cfg s.crc b,
            cursor := .awaitingChecksum, eventQ := .none }

/-- R63: the id byte is stored, ends the held packet, enters the checksum, and the length is next. -/
def Obligations.IdByteIsStoredAndEndsHeldPacket : Prop :=
  ∀ (s : State) (b : Byte), s.cursor = .awaitingId →
    exec (.cId b) s =
      .next
        { s with
          id := b, idWritten := true, held := false, crc := crcStep s.cfg s.crc b,
          cursor := .awaitingLength, eventQ := .none } ∧
    ∀ rest : List Stimulus, PresentsByte s rest b →
      step s = .next
        { s with
          input := rest, esc := false, id := b, idWritten := true, held := false,
          crc := crcStep s.cfg s.crc b, cursor := .awaitingLength, eventQ := .none }

/-- R64: a length from 1 to `MAXP` is stored, enters the checksum, and the payload starts at cell 0. -/
def Obligations.ValidLengthStartsPayload : Prop :=
  ∀ (s : State) (b : Byte), s.cursor = .awaitingLength → 1 ≤ b.toNat → b.toNat ≤ s.cfg.maxp →
    exec (.cLen b) s =
      .next
        { s with
          length := b, lengthWritten := true, crc := crcStep s.cfg s.crc b,
          cursor := .payload 0, eventQ := .none } ∧
    ∀ rest : List Stimulus, PresentsByte s rest b →
      step s = .next
        { s with
          input := rest, esc := false, length := b, lengthWritten := true,
          crc := crcStep s.cfg s.crc b, cursor := .payload 0, eventQ := .none }

/-- R65: a zero length is stored, enters the checksum, and the checksum byte is next; no payload cell is written. -/
def Obligations.ZeroLengthLeadsToChecksum : Prop :=
  ∀ s : State, s.cursor = .awaitingLength →
    exec .cLenZero s =
      .next
        { s with
          length := 0, lengthWritten := true, crc := crcStep s.cfg s.crc 0,
          cursor := .awaitingChecksum, eventQ := .none } ∧
    ∀ rest : List Stimulus, PresentsByte s rest 0 →
      step s = .next
        { s with
          input := rest, esc := false, length := 0, lengthWritten := true,
          crc := crcStep s.cfg s.crc 0, cursor := .awaitingChecksum, eventQ := .none }

/-- R66: a length above `MAXP` discards the frame with the event LEN_OVERFLOW and is not stored. -/
def Obligations.OverlongLengthDiscardsFrame : Prop :=
  ∀ (s : State) (b : Byte), s.cursor = .awaitingLength → s.cfg.maxp < b.toNat →
    exec (.cLenOverflow b) s = .next { s with cursor := .idle, eventQ := .lenOverflow } ∧
    ∀ rest : List Stimulus, PresentsByte s rest b →
      step s = .next { s with input := rest, esc := false, cursor := .idle, eventQ := .lenOverflow }

/-- R67: a matching checksum byte completes the frame with the event FRAME_OK and holds it. -/
def Obligations.MatchingChecksumCompletesFrame : Prop :=
  ∀ (s : State) (b : Byte), s.cursor = .awaitingChecksum → b = crcFinal s.cfg s.crc →
    exec (.cChecksumOk b) s = .next { s with held := true, cursor := .idle, eventQ := .frameOk } ∧
    ∀ rest : List Stimulus, PresentsByte s rest b →
      step s = .next
        { s with input := rest, esc := false, held := true, cursor := .idle, eventQ := .frameOk }

/-- R68: any other checksum byte completes the frame with the event CRC_MISMATCH, and the fields stay held. -/
def Obligations.WrongChecksumReportsMismatch : Prop :=
  ∀ (s : State) (b : Byte), s.cursor = .awaitingChecksum → b ≠ crcFinal s.cfg s.crc →
    exec (.cChecksumBad b) s = .next { s with held := true, cursor := .idle, eventQ := .crcMismatch } ∧
    ∀ rest : List Stimulus, PresentsByte s rest b →
      step s = .next
        { s with input := rest, esc := false, held := true, cursor := .idle, eventQ := .crcMismatch }

/-- R69: a logical byte in IDLE changes no register and reports nothing. -/
def Obligations.IdleNoiseChangesNothing : Prop :=
  ∀ (s : State) (b : Byte), s.cursor = .idle →
    exec (.cIdleNoise b) s = .next { s with eventQ := .none } ∧
    ∀ rest : List Stimulus, PresentsByte s rest b →
      step s = .next { s with input := rest, esc := false, eventQ := .none }

/-! ## The host's reads -/

/-- R94: READ_ID answers in every state with what `out_id` shows: `id` once it has been written since reset, and the
report UNWRITTEN before. That the report does not end the run (log 4) and stands in `sampled` (log 6) is the model's. -/
def Obligations.ReadIdShowsWrittenId : Prop :=
  ∀ s : State,
    exec .readId s = .next { s with sampled := some (.id (outId s)) } ∧
    (s.idWritten = true → outId s = ⟨s.id, true⟩) ∧
    (s.idWritten = false → (outId s).written = false) ∧
    ∀ rest : List Stimulus, s.cfg.admitted = true → s.input = .readId :: rest →
      step s = exec .readId { s with input := rest }

/-- R95: READ_LENGTH answers in every state with what `out_length` shows: `length` once it has been written since reset,
at most `MAXP` in a state that meets the invariant, and the report UNWRITTEN before. That the report does not end the
run (log 4) and stands in `sampled` (log 6) is the model's. -/
def Obligations.ReadLengthShowsWrittenLength : Prop :=
  ∀ s : State,
    exec .readLength s = .next { s with sampled := some (.length (outLength s)) } ∧
    (s.lengthWritten = true → outLength s = ⟨s.length, true⟩) ∧
    (s.lengthWritten = false → (outLength s).written = false) ∧
    (DecoderInv s → (outLength s).written = true → (outLength s).value.toNat ≤ s.cfg.maxp) ∧
    ∀ rest : List Stimulus, s.cfg.admitted = true → s.input = .readLength :: rest →
      step s = exec .readLength { s with input := rest }

/-- R96, R35: READ_PAYLOAD shows a written cell, reports UNWRITTEN on a cell not written since reset, and faults
PL_ADDR_OUT_OF_RANGE from address `MAXP` up. That the report does not end the run (log 4) and stands in `sampled`
(log 6) is the model's. -/
def Obligations.ReadPayloadShowsWrittenCell : Prop :=
  ∀ (s : State) (a : Byte),
    (s.cfg.maxp ≤ a.toNat →
      plData s a = .error .plAddrOutOfRange ∧ exec (.readPayload a) s = .fault .plAddrOutOfRange) ∧
    (a.toNat < s.cfg.maxp →
      ∃ r, plData s a = .ok r ∧ exec (.readPayload a) s = .next { s with sampled := some (.payload r) } ∧
        (Memory.read s.pl a.toNat = none → r.written = false) ∧
        ∀ v, Memory.read s.pl a.toNat = some v → r = ⟨v, true⟩) ∧
    ∀ rest : List Stimulus, s.cfg.admitted = true → s.input = .readPayload a :: rest →
      step s = exec (.readPayload a) { s with input := rest }

/-- R97: READ_STATUS always answers, with the event and its bit 0, `held`, `esc` and the cursor's encoding. That
they stand together in `sampled` is the model's: log 6. -/
def Obligations.ReadStatusAlwaysAnswers : Prop :=
  ∀ s : State,
    exec .readStatus s =
      .next
        { s with
          sampled := some (.status
            { ready := (eventCode s.eventQ).getLsbD 0, event := eventCode s.eventQ, held := s.held,
              esc := s.esc, cursor := cursorCode s.cursor }) } ∧
    ∀ rest : List Stimulus, s.cfg.admitted = true → s.input = .readStatus :: rest →
      step s = exec .readStatus { s with input := rest }

/-- R34: a read changes no register, and repeated at once it shows the same (that what it saw stands in `sampled` is
the model's: log 6). -/
def Obligations.ReadsChangeNoRegister : Prop :=
  ∀ (s t : State) (d : Stimulus) (rest : List Stimulus), (∀ iw, d ≠ .edge iw) → s.input = d :: rest →
    step s = .next t →
    t = { s with input := rest, sampled := t.sampled } ∧
    ∀ rest', step { t with input := d :: rest' } = .next { t with input := rest' }

/-! ## Encodings -/

/-- R45: the encoding of the cursor port, with the reserved tags never produced. -/
def Obligations.CursorPortEncoding : Prop :=
  cursorCode .idle = 0b000_00000000 ∧ cursorCode .awaitingId = 0b001_00000000 ∧
  cursorCode .awaitingLength = 0b010_00000000 ∧ cursorCode .awaitingChecksum = 0b100_00000000 ∧
  (∀ i, i ≤ 255 → (cursorCode (.payload i)).toNat = 0b011 * 256 + i) ∧
  ∀ c : Cursor, (cursorCode c).toNat / 256 ≤ 0b100

/-- R46: the event codes; bit 0 says that a frame is complete, bit 1 that there is an error. -/
def Obligations.EventPortEncoding : Prop :=
  eventCode .none = 0b00 ∧ eventCode .frameOk = 0b01 ∧ eventCode .lenOverflow = 0b10 ∧
  eventCode .crcMismatch = 0b11 ∧
  (∀ e : Event, readyBit e = true ↔ (e = .frameOk ∨ e = .crcMismatch)) ∧
  ∀ e : Event, errorBit e = true ↔ (e = .lenOverflow ∨ e = .crcMismatch)

/-- A few input words written from R40 and R49 in the reference configuration right after reset, bit by bit. -/
def Obligations.SampleWordsDecode : Prop :=
  decode State.reset (.edge 0b100_00000000) = .reset ∧
  decode State.reset (.edge 0b010_00000000) = .clear ∧
  decode State.reset (.edge 0b000_00000000) = .idleCycle ∧
  decode State.reset (.edge 0b001_01111110) = .cDelim ∧
  decode State.reset (.edge 0b001_01111101) = .cEscSet ∧
  decode State.reset (.edge 0b001_01010101) = .cIdleNoise 0x55 ∧
  decode { State.reset with esc := true } (.edge 0b001_00000011) = .cUnescape 0x03 ∧
  decode { State.reset with cursor := .awaitingLength } (.edge 0b001_00001001) = .cLenOverflow 0x09 ∧
  decode { State.reset with cursor := .payload 1, length := 2 } (.edge 0b001_00010001) = .cPayloadLast 0x11

/-- R40, R49: decoding what the encoder gives for a well-formed operation, in a state that selects its row, gives the
operation back, with every operand. A field row is carried by one input word with no prefix pending: a row takes the
logical byte (log 7) and the state picks the row (log 11). -/
def Obligations.DecodeOfEncodeIsIdentity : Prop :=
  ∀ (s : State) (i : Instr), i.wellFormed s.cfg = true → i.enabled s = true →
    (i.isField = true → s.esc = false) → decode s (encode s.cfg i) = i

/-- R40, R47: encoding what an input word decodes to gives the word back, with the bits R47 lets be ignored at 0: no
bit that a rule reads is dropped, in any state. That the encoder gives ignored bits as 0 is the model's (log 11). -/
def Obligations.EncodeOfDecodeKeepsReadBits : Prop :=
  ∀ (s : State) (iw : InputWord),
    encode s.cfg (decode s (.edge iw)) =
      .edge (if iw.getLsbD 10 then 0b100_00000000 else if iw.getLsbD 9 then 0b010_00000000
        else if iw.getLsbD 8 then iw else 0)

/-- The two-byte layout of an input word, low byte first, reads back; a bit above `IW[10]` and a missing byte are
refused by name. The layout is the model's (log 10). -/
def Obligations.InputWordBytesReadBack : Prop :=
  (∀ (iw : InputWord) (rest : List Byte), inputWordOfBytes (inputWordBytes iw ++ rest) = .ok (iw, rest)) ∧
  (∀ (lo hi : Byte) (rest : List Byte), 8 ≤ hi.toNat →
    inputWordOfBytes (lo :: hi :: rest) = .error .noSuchBit) ∧
  ∀ bytes : List Byte, bytes.length < 2 → inputWordOfBytes bytes = .error .truncated

/-- R80: the reference checksum. One step is the printed table at `acc ^ b`, the final value is the accumulator, the
initial value is 0, and the nine ASCII bytes "123456789" give 0xF4. -/
def Obligations.ReferenceChecksumIsPrintedTable : Prop :=
  (∀ acc b : Byte, referenceCrcTable[(acc ^^^ b).toNat]? = some (crcStep referenceConfig acc b)) ∧
  (∀ acc : Byte, crcFinal referenceConfig acc = acc) ∧ referenceConfig.crcInit = 0 ∧
  crcOver referenceConfig [0x31, 0x32, 0x33, 0x34, 0x35, 0x36, 0x37, 0x38, 0x39] = 0xF4

/-- R43: stuffing, under an admitted configuration, sends no delimiter, sends an unreserved value as itself, and sends
a reserved value as a marker and a byte that the receiver turns back into the value (that the second byte is no
delimiter is the spec's inference from R5 and R43). -/
def Obligations.StuffingIsUndoneByTheReceiver : Prop :=
  ∀ (c : Config) (v : Byte), c.admitted = true →
    (∀ y, y ∈ stuff c v → y ≠ c.delim) ∧
    (v ≠ c.delim → v ≠ c.esc → stuff c v = [v] ∧ completesByte c false v = true) ∧
    (v = c.delim ∨ v = c.esc →
      ∃ y, stuff c v = [c.esc, y] ∧ y = v ^^^ c.esc ∧ completesByte c true y = true ∧
        logicalByte c true y = v)

/-! ## The machine as a whole -/

/-- R20: the registers after reset, for every configuration; reads of the unwritten ones report it, and that the report
does not end the run is the model's (log 4). That State.reset has the reference configuration, and that the host's side
is empty, is the model's (log 1, log 5, log 6). -/
def Obligations.ResetStateHoldsResetValues : Prop :=
  State.reset = State.resetWith referenceConfig ∧
  ∀ c : Config,
    (State.resetWith c).cfg = c ∧ (State.resetWith c).cursor = .idle ∧ (State.resetWith c).esc = false ∧
    (State.resetWith c).crc = c.crcInit ∧ (State.resetWith c).held = false ∧
    (State.resetWith c).eventQ = .none ∧
    (outId (State.resetWith c)).written = false ∧ (outLength (State.resetWith c)).written = false ∧
    (∀ a : Byte, a.toNat < c.maxp → ∃ r, plData (State.resetWith c) a = .ok r ∧ r.written = false) ∧
    (State.resetWith c).input = [] ∧ (State.resetWith c).sampled = none

/-- The invariant holds after reset, for every admitted configuration and whatever the host presents; the reference
configuration is admitted (the spec infers R19 from its rules). -/
def Obligations.InvariantHoldsAtReset : Prop :=
  DecoderInv State.reset ∧
  ∀ (c : Config) (w : List Stimulus), c.admitted = true → DecoderInv { State.resetWith c with input := w }

/-- R19, R82: every step keeps the invariant (the spec infers both from its rules). -/
def Obligations.StepKeepsInvariant : Prop :=
  ∀ s t : State, DecoderInv s → step s = .next t → DecoderInv t

/-- R100, R35: inside the invariant every host action completes, edge or read, but a payload read at an address with no
cell, and in any state that read is the only one that faults. With nothing presented the edge is idle: the model's,
log 5. -/
def Obligations.OnlyOutOfRangeReadStopsTheMachine : Prop :=
  (∀ s : State, DecoderInv s → (∀ a rest, s.input = .readPayload a :: rest → a.toNat < s.cfg.maxp) →
    ∃ t, step s = .next t) ∧
  ∀ (s : State) (f : Fault), step s = .fault f →
    f = .plAddrOutOfRange ∧ ∃ a rest, s.input = .readPayload a :: rest ∧ s.cfg.maxp ≤ a.toNat

/-- R60: the step on a wire byte is the consume function as R60 writes it, the event registered. -/
def Obligations.StepOnByteIsConsume : Prop :=
  ∀ (s : State) (x : Byte) (rest : List Stimulus), DecoderInv s → s.input = .edge (byteWord x) :: rest →
    step s = .next
      { (consume { s with input := rest } x).1 with eventQ := (consume { s with input := rest } x).2 }

/-- R93: over bytes with any number of idle cycles among them, the machine's state is the fold of the consume function
over the bytes, `event_q` aside (the spec infers R93 from R90 and R91). -/
def Obligations.StreamIsFoldOfConsume : Prop :=
  ∀ (s : State) (ws : List (Option Byte)) (rest : List Stimulus), DecoderInv s →
    s.input = (ws.map fun w => match w with | some x => Stimulus.edge (byteWord x) | none => idleEdge) ++ rest →
    ∃ t, Host.Core.run core ws.length s = .next t ∧
      ({ t with eventQ := .none } : State) =
        { consumeAll { s with input := rest } (ws.filterMap fun w => w) with eventQ := .none }

/-- R70: the cursor transition table of one consume (the spec infers it from R60). -/
def Obligations.CursorFollowsTransitionTable : Prop :=
  ∀ (s : State) (x : Byte) (rest : List Stimulus), DecoderInv s → s.input = .edge (byteWord x) :: rest →
    ∃ t, step s = .next t ∧
      (x = s.cfg.delim → t.cursor = .awaitingId) ∧
      (x ≠ s.cfg.delim → x = s.cfg.esc → s.esc = false → t.cursor = s.cursor ∧ t.esc = true) ∧
      (completesByte s.cfg s.esc x = true →
        t.cursor =
          match s.cursor with
          | .idle => .idle
          | .awaitingId => .awaitingLength
          | .awaitingLength =>
            if s.cfg.maxp < (logicalByte s.cfg s.esc x).toNat then .idle
            else if logicalByte s.cfg s.esc x = 0 then .awaitingChecksum
            else .payload 0
          | .payload i => if i + 1 = s.length.toNat then .awaitingChecksum else .payload (i + 1)
          | .awaitingChecksum => .idle)

/-- R11: after a consume, `esc` is 1 exactly if the byte was an escape marker consumed with `esc = 0`. -/
def Obligations.EscapeFlagFollowsUnpairedMarker : Prop :=
  ∀ (s : State) (x : Byte) (rest : List Stimulus), DecoderInv s → s.input = .edge (byteWord x) :: rest →
    ∃ t, step s = .next t ∧ (t.esc = true ↔ s.esc = false ∧ x = s.cfg.esc)

/-- R81, R83: the accumulator restarts at a delimiter, takes one `CRC_STEP` for each logical byte that a field row
writes, and stays for a prefix, noise, an overlong length and the checksum byte. -/
def Obligations.AccumulatorStepsOncePerFieldByte : Prop :=
  ∀ (s : State) (x : Byte) (rest : List Stimulus), DecoderInv s → s.input = .edge (byteWord x) :: rest →
    ∃ t, step s = .next t ∧
      (x = s.cfg.delim → t.crc = s.cfg.crcInit) ∧
      (x ≠ s.cfg.delim → x = s.cfg.esc → s.esc = false → t.crc = s.crc) ∧
      (completesByte s.cfg s.esc x = true →
        t.crc =
          match s.cursor with
          | .awaitingId | .payload _ => crcStep s.cfg s.crc (logicalByte s.cfg s.esc x)
          | .awaitingLength =>
            if s.cfg.maxp < (logicalByte s.cfg s.esc x).toNat then s.crc
            else crcStep s.cfg s.crc (logicalByte s.cfg s.esc x)
          | .idle | .awaitingChecksum => s.crc)

/-- R12, R13, R14: away from a reset, a field register or payload cell changes only at its own cursor value, to the
logical byte that the edge completes, and `length` only to a byte that is at most `MAXP`. -/
def Obligations.FieldsChangeOnlyAtTheirCursor : Prop :=
  ∀ s t : State, step s = .next t →
    (∀ iw rest, s.input = .edge iw :: rest → iw.getLsbD 10 = false) →
    ((t.id ≠ s.id ∨ t.idWritten ≠ s.idWritten) →
      s.cursor = .awaitingId ∧ ∃ b, PresentsByte s t.input b ∧ t.id = b) ∧
    ((t.length ≠ s.length ∨ t.lengthWritten ≠ s.lengthWritten) →
      s.cursor = .awaitingLength ∧ ∃ b, PresentsByte s t.input b ∧ b.toNat ≤ s.cfg.maxp ∧ t.length = b) ∧
    ∀ a, Memory.read t.pl a ≠ Memory.read s.pl a →
      s.cursor = .payload a ∧ ∃ b, PresentsByte s t.input b ∧ Memory.read t.pl a = some b

/-- R16: no step changes the configuration, whatever the host presents. -/
def Obligations.NoStepChangesConfiguration : Prop :=
  ∀ s t : State, step s = .next t → t.cfg = s.cfg

/-- R101, R102, R107 and R67: at an edge, each event is reported exactly when its byte is consumed at its cursor, and
each returns the cursor to IDLE. -/
def Obligations.EventsComeOnlyFromTheirByte : Prop :=
  ∀ (s t : State) (iw : InputWord) (rest : List Stimulus), DecoderInv s → s.input = .edge iw :: rest →
    step s = .next t →
    (t.eventQ = .lenOverflow ↔
      s.cursor = .awaitingLength ∧ ∃ b, PresentsByte s rest b ∧ s.cfg.maxp < b.toNat) ∧
    (t.eventQ = .crcMismatch ↔
      s.cursor = .awaitingChecksum ∧ ∃ b, PresentsByte s rest b ∧ b ≠ crcFinal s.cfg s.crc) ∧
    (t.eventQ = .frameOk ↔
      s.cursor = .awaitingChecksum ∧ ∃ b, PresentsByte s rest b ∧ b = crcFinal s.cfg s.crc) ∧
    (t.eventQ ≠ .none → t.cursor = .idle)

/-- R17: `held` is set only by a checksum byte, cleared only by an id byte and by reset, and while it stays set the
held packet stays the same. -/
def Obligations.HeldPacketStaysUntilIdByteOrReset : Prop :=
  ∀ s t : State, DecoderInv s → step s = .next t →
    (s.held = false → t.held = true →
      s.cursor = .awaitingChecksum ∧ (∃ b, PresentsByte s t.input b) ∧
        (t.eventQ = .frameOk ∨ t.eventQ = .crcMismatch)) ∧
    (s.held = true → t.held = false →
      (s.cursor = .awaitingId ∧ ∃ b, PresentsByte s t.input b) ∨
        ∃ iw rest, s.input = .edge iw :: rest ∧ iw.getLsbD 10 = true) ∧
    (s.held = true → t.held = true → heldPacket t = heldPacket s)

/-- R72, R82: when an edge reports FRAME_OK or CRC_MISMATCH, the fields are written, the length is at most `MAXP`, the
packet is held, and the byte was compared with the checksum over exactly that id, length and payload (the spec infers
both rules from others). -/
def Obligations.ReportedFrameIsCompleteAndChecked : Prop :=
  ∀ (s t : State) (iw : InputWord) (rest : List Stimulus), DecoderInv s → s.input = .edge iw :: rest →
    step s = .next t → (t.eventQ = .frameOk ∨ t.eventQ = .crcMismatch) →
    t.idWritten = true ∧ t.lengthWritten = true ∧ t.length.toNat ≤ t.cfg.maxp ∧
    cellsWritten t t.length.toNat ∧ heldPacket t = some ⟨t.id, Memory.take t.pl t.length.toNat⟩ ∧
    ∃ b, PresentsByte s rest b ∧
      (t.eventQ = .frameOk ↔ b = crcFinal t.cfg (crcOver t.cfg (receivedBytes t t.length.toNat)))

/-- R82: in every state a run reaches, from reset, any admitted configuration and any input, with the cursor at the
checksum, the accumulator is the fold over id, length and payload (the spec infers R82's sentence from R50, R81, R83). -/
def Obligations.AccumulatorCoversReceivedFrame : Prop :=
  ∀ (c : Config) (w : List Stimulus) (k : Nat) (t : State), c.admitted = true →
    Host.Core.run core k { State.resetWith c with input := w } = .next t → t.cursor = .awaitingChecksum →
    t.crc = crcOver t.cfg (t.id :: t.length :: Memory.take t.pl t.length.toNat) ∧
      (Memory.take t.pl t.length.toNat).length = t.length.toNat

/-- R108: after a delimiter, every event, cursor and escape flag depends only on the bytes after it: two instances of
one configuration, in any two states that meet the invariant, agree on them at every edge from the delimiter on (the
spec infers it from R50, R60 and R19). -/
def Obligations.DelimiterForgetsThePast : Prop :=
  ∀ (s t : State) (xs : List Byte) (rest : List Stimulus) (k : Nat), DecoderInv s → DecoderInv t → s.cfg = t.cfg →
    s.input = byteEdges (s.cfg.delim :: xs) ++ rest → t.input = byteEdges (s.cfg.delim :: xs) ++ rest →
    1 ≤ k → k ≤ xs.length + 1 →
    ∃ s' t', Host.Core.run core k s = .next s' ∧ Host.Core.run core k t = .next t' ∧
      s'.eventQ = t'.eventQ ∧ s'.cursor = t'.cursor ∧ s'.esc = t'.esc

/-- R42, R52: a value sent in the escape form it did not need leaves the machine in the state that the raw byte does
(the spec infers R42 from R50 to R52). -/
def Obligations.EscapeFormActsAsTheRawByte : Prop :=
  ∀ (s t : State) (b : Byte) (rest : List Stimulus), DecoderInv s → s.esc = false →
    b ≠ s.cfg.delim → b ≠ s.cfg.esc → b ^^^ s.cfg.esc ≠ s.cfg.delim →
    step { s with input := .edge (byteWord b) :: rest } = .next t →
    Host.Core.run core 2 { s with input := byteEdges [s.cfg.esc, b ^^^ s.cfg.esc] ++ rest } = .next t

/-- R44, R43, R67, R68: the wire bytes that a conforming sender gives for any id and any payload of at most `MAXP`
bytes, from any state of an admitted instance, are decoded to that id and payload, held; the event is FRAME_OK if the
checksum byte is the frame's own and CRC_MISMATCH if it is any other byte. -/
def Obligations.EveryFrameIsDecodedToItsPacket : Prop :=
  ∀ (s : State) (id : Byte) (payload : List Byte) (k : Byte) (rest : List Stimulus),
    s.cfg.admitted = true → payload.length ≤ s.cfg.maxp →
    s.input = byteEdges (frameWith s.cfg id payload k) ++ rest →
    ∃ t, Host.Core.run core (frameWith s.cfg id payload k).length s = .next t ∧ t.input = rest ∧
      t.cursor = .idle ∧ t.esc = false ∧ heldPacket t = some ⟨id, payload⟩ ∧
      t.eventQ = if k = frameChecksum s.cfg id payload then .frameOk else .crcMismatch

/-- R66, R101: a frame header with a length above `MAXP`, from any state of an admitted instance, ends in IDLE with
LEN_OVERFLOW and nothing held. -/
def Obligations.OverlongHeaderIsRejected : Prop :=
  ∀ (s : State) (id len : Byte) (rest : List Stimulus), s.cfg.admitted = true → s.cfg.maxp < len.toNat →
    s.input = byteEdges (frameHeader s.cfg id len) ++ rest →
    ∃ t, Host.Core.run core (frameHeader s.cfg id len).length s = .next t ∧ t.input = rest ∧
      t.cursor = .idle ∧ t.eventQ = .lenOverflow ∧ heldPacket t = none ∧ outId t = ⟨id, true⟩ ∧
      outLength t = outLength s ∧ t.pl = s.pl

/-- R20: the value behind an unwritten mark of `id` or `length` reaches nothing but a read that reports UNWRITTEN:
inside the invariant, states that differ only there answer alike, so nothing else rests on the values the model chose
(log 3). -/
def Obligations.UnwrittenValuesReachOnlyReportedReads : Prop :=
  ∀ s t : State, DecoderInv s → SameButUnwritten s t →
    (∀ s', step s = .next s' → ∃ t', step t = .next t' ∧ SameButUnwritten s' t') ∧
    (∀ f, step s = .fault f → step t = .fault f) ∧
    (outId t).hide = (outId s).hide ∧ (outLength t).hide = (outLength s).hide ∧
    (∀ a, plData t a = plData s a) ∧ statusPorts t = statusPorts s ∧ heldPacket t = heldPacket s
end

