-- ==== Sys2Proof/Laws/Checksum.lean ====
section
/-! SUPPORT. The laws of the checksum. -/

namespace Sys2Proof.Machine

@[simp] theorem crcOver_nil (c : Config) : crcOver c [] = c.crcInit := rfl

theorem crcOver_append (c : Config) (bytes : List Byte) (b : Byte) :
    crcOver c (bytes ++ [b]) = crcStep c (crcOver c bytes) b := by
  simp [crcOver]

end Sys2Proof.Machine

namespace Sys2Proof.Laws

open Sys2Proof.Machine

/-- Every total function of two bytes is the `CRC_STEP` of some configuration (R4), so a claim about every
configuration is a claim about every checksum. -/
theorem crcStep_any (f : Byte → Byte → Byte) (c : Config) :
    ∃ steps, ∀ acc b, crcStep { c with crcAlg := .table steps } acc b = f acc b := by
  refine ⟨List.ofFn fun k : Fin 65536 => f (BitVec.ofNat 8 (k / 256)) (BitVec.ofNat 8 (k % 256)), fun acc b => ?_⟩
  have ha := acc.isLt
  have hb := b.isLt
  have hk : acc.toNat * 256 + b.toNat < 65536 := by omega
  have h1 : (acc.toNat * 256 + b.toNat) / 256 = acc.toNat := by omega
  have h2 : (acc.toNat * 256 + b.toNat) % 256 = b.toNat := by omega
  simp only [crcStep, List.getD_eq_getElem?_getD, List.getElem?_ofFn, hk, dite_true, Option.getD_some, h1, h2,
    BitVec.ofNat_toNat, BitVec.setWidth_eq]

/-- Every total function of one byte is the `CRC_FINAL` of some configuration (R4). -/
theorem crcFinal_any (f : Byte → Byte) (c : Config) :
    ∃ values, ∀ acc, crcFinal { c with crcOut := .table values } acc = f acc := by
  refine ⟨List.ofFn fun k : Fin 256 => f (BitVec.ofNat 8 k), fun acc => ?_⟩
  have ha := acc.isLt
  have hk : acc.toNat < 256 := by omega
  simp only [crcFinal, List.getD_eq_getElem?_getD, List.getElem?_ofFn, hk, dite_true, Option.getD_some,
    BitVec.ofNat_toNat, BitVec.setWidth_eq]

end Sys2Proof.Laws
end

