-- ==== Sys2Proof/Laws/Decode.lean ====
section
/-! SUPPORT. The laws of the input word and of selection. -/

namespace Sys2Proof

open Machine

@[simp] theorem iwRst_byteWord (x : Byte) : iwRst (byteWord x) = false := by
  simp only [iwRst, byteWord, BitVec.getLsbD_append]; rfl

@[simp] theorem iwClear_byteWord (x : Byte) : iwClear (byteWord x) = false := by
  simp only [iwClear, byteWord, BitVec.getLsbD_append]; rfl

@[simp] theorem iwValid_byteWord (x : Byte) : iwValid (byteWord x) = true := by
  simp only [iwValid, byteWord, BitVec.getLsbD_append]; rfl

@[simp] theorem iwByte_byteWord (x : Byte) : iwByte (byteWord x) = x := by
  apply BitVec.eq_of_getLsbD_eq
  intro i hi
  simp only [iwByte, BitVec.getLsbD_extractLsb', byteWord, BitVec.getLsbD_append, Nat.zero_add, hi, decide_true,
    Bool.true_and, if_true]

/-- A word with `rst = clear = 0` and `in_valid = 1` is the one that consumes its byte. -/
theorem byteWord_iwByte {iw : InputWord} (hr : iwRst iw = false) (hc : iwClear iw = false) (hv : iwValid iw = true) :
    byteWord (iwByte iw) = iw := by
  apply BitVec.eq_of_getLsbD_eq
  intro i hi
  simp only [iwRst, iwClear, iwValid] at hr hc hv
  simp only [byteWord, BitVec.getLsbD_append, iwByte, BitVec.getLsbD_extractLsb', Nat.zero_add]
  by_cases h : i < 8
  · simp [h]
  · have : i = 8 ∨ i = 9 ∨ i = 10 := by omega
    rcases this with rfl | rfl | rfl <;> simp_all

@[simp] theorem selectEdge_byteWord (s : State) (x : Byte) : selectEdge s (byteWord x) = selectByte s x := by
  simp [selectEdge]

@[simp] theorem decode_edge (s : State) (iw : InputWord) : decode s (.edge iw) = selectEdge s iw := rfl

/-! Selection reads the configuration, the cursor, the escape flag, `length` and `crc`, and nothing of the host's side. -/

@[simp] theorem selectField_input (s : State) (w : List Stimulus) (b : Byte) :
    selectField { s with input := w } b = selectField s b := rfl

@[simp] theorem selectField_esc (s : State) (v : Bool) (b : Byte) :
    selectField { s with esc := v } b = selectField s b := rfl

@[simp] theorem selectByte_input (s : State) (w : List Stimulus) (x : Byte) :
    selectByte { s with input := w } x = selectByte s x := rfl

@[simp] theorem selectEdge_input (s : State) (w : List Stimulus) (iw : InputWord) :
    selectEdge { s with input := w } iw = selectEdge s iw := rfl

@[simp] theorem decode_input (s : State) (w : List Stimulus) (d : Stimulus) :
    decode { s with input := w } d = decode s d := rfl

/-- Selection of a byte that completes a logical byte with no prefix pending is the field row of that byte. -/
theorem selectByte_raw {s : State} {x : Byte} (hd : x ≠ s.cfg.delim) (he : s.esc = false) (hx : x ≠ s.cfg.esc) :
    selectByte s x = selectField s x := by
  simp [selectByte, hd, he, hx]

end Sys2Proof
end

