-- ==== Sys2Proof/Laws/State.lean ====
section
/-! SUPPORT. One lemma per field of State for each register operation of Machine/Ops.lean: what the field holds after
it. -/

namespace Sys2Proof.Machine

/-! ### emit -/

@[simp] theorem emit_cfg (e : Event) (s : State) : (emit e s).cfg = s.cfg := rfl
@[simp] theorem emit_cursor (e : Event) (s : State) : (emit e s).cursor = s.cursor := rfl
@[simp] theorem emit_esc (e : Event) (s : State) : (emit e s).esc = s.esc := rfl
@[simp] theorem emit_id (e : Event) (s : State) : (emit e s).id = s.id := rfl
@[simp] theorem emit_idWritten (e : Event) (s : State) : (emit e s).idWritten = s.idWritten := rfl
@[simp] theorem emit_length (e : Event) (s : State) : (emit e s).length = s.length := rfl
@[simp] theorem emit_lengthWritten (e : Event) (s : State) : (emit e s).lengthWritten = s.lengthWritten := rfl
@[simp] theorem emit_pl (e : Event) (s : State) : (emit e s).pl = s.pl := rfl
@[simp] theorem emit_crc (e : Event) (s : State) : (emit e s).crc = s.crc := rfl
@[simp] theorem emit_held (e : Event) (s : State) : (emit e s).held = s.held := rfl
@[simp] theorem emit_eventQ (e : Event) (s : State) : (emit e s).eventQ = e := rfl
@[simp] theorem emit_input (e : Event) (s : State) : (emit e s).input = s.input := rfl
@[simp] theorem emit_sampled (e : Event) (s : State) : (emit e s).sampled = s.sampled := rfl

/-! ### setCursor -/

@[simp] theorem setCursor_cfg (c : Cursor) (s : State) : (setCursor c s).cfg = s.cfg := rfl
@[simp] theorem setCursor_cursor (c : Cursor) (s : State) : (setCursor c s).cursor = c := rfl
@[simp] theorem setCursor_esc (c : Cursor) (s : State) : (setCursor c s).esc = s.esc := rfl
@[simp] theorem setCursor_id (c : Cursor) (s : State) : (setCursor c s).id = s.id := rfl
@[simp] theorem setCursor_idWritten (c : Cursor) (s : State) : (setCursor c s).idWritten = s.idWritten := rfl
@[simp] theorem setCursor_length (c : Cursor) (s : State) : (setCursor c s).length = s.length := rfl
@[simp] theorem setCursor_lengthWritten (c : Cursor) (s : State) : (setCursor c s).lengthWritten = s.lengthWritten := rfl
@[simp] theorem setCursor_pl (c : Cursor) (s : State) : (setCursor c s).pl = s.pl := rfl
@[simp] theorem setCursor_crc (c : Cursor) (s : State) : (setCursor c s).crc = s.crc := rfl
@[simp] theorem setCursor_held (c : Cursor) (s : State) : (setCursor c s).held = s.held := rfl
@[simp] theorem setCursor_eventQ (c : Cursor) (s : State) : (setCursor c s).eventQ = s.eventQ := rfl
@[simp] theorem setCursor_input (c : Cursor) (s : State) : (setCursor c s).input = s.input := rfl
@[simp] theorem setCursor_sampled (c : Cursor) (s : State) : (setCursor c s).sampled = s.sampled := rfl

/-! ### setEsc -/

@[simp] theorem setEsc_cfg (v : Bool) (s : State) : (setEsc v s).cfg = s.cfg := rfl
@[simp] theorem setEsc_cursor (v : Bool) (s : State) : (setEsc v s).cursor = s.cursor := rfl
@[simp] theorem setEsc_esc (v : Bool) (s : State) : (setEsc v s).esc = v := rfl
@[simp] theorem setEsc_id (v : Bool) (s : State) : (setEsc v s).id = s.id := rfl
@[simp] theorem setEsc_idWritten (v : Bool) (s : State) : (setEsc v s).idWritten = s.idWritten := rfl
@[simp] theorem setEsc_length (v : Bool) (s : State) : (setEsc v s).length = s.length := rfl
@[simp] theorem setEsc_lengthWritten (v : Bool) (s : State) : (setEsc v s).lengthWritten = s.lengthWritten := rfl
@[simp] theorem setEsc_pl (v : Bool) (s : State) : (setEsc v s).pl = s.pl := rfl
@[simp] theorem setEsc_crc (v : Bool) (s : State) : (setEsc v s).crc = s.crc := rfl
@[simp] theorem setEsc_held (v : Bool) (s : State) : (setEsc v s).held = s.held := rfl
@[simp] theorem setEsc_eventQ (v : Bool) (s : State) : (setEsc v s).eventQ = s.eventQ := rfl
@[simp] theorem setEsc_input (v : Bool) (s : State) : (setEsc v s).input = s.input := rfl
@[simp] theorem setEsc_sampled (v : Bool) (s : State) : (setEsc v s).sampled = s.sampled := rfl

/-! ### setHeld -/

@[simp] theorem setHeld_cfg (v : Bool) (s : State) : (setHeld v s).cfg = s.cfg := rfl
@[simp] theorem setHeld_cursor (v : Bool) (s : State) : (setHeld v s).cursor = s.cursor := rfl
@[simp] theorem setHeld_esc (v : Bool) (s : State) : (setHeld v s).esc = s.esc := rfl
@[simp] theorem setHeld_id (v : Bool) (s : State) : (setHeld v s).id = s.id := rfl
@[simp] theorem setHeld_idWritten (v : Bool) (s : State) : (setHeld v s).idWritten = s.idWritten := rfl
@[simp] theorem setHeld_length (v : Bool) (s : State) : (setHeld v s).length = s.length := rfl
@[simp] theorem setHeld_lengthWritten (v : Bool) (s : State) : (setHeld v s).lengthWritten = s.lengthWritten := rfl
@[simp] theorem setHeld_pl (v : Bool) (s : State) : (setHeld v s).pl = s.pl := rfl
@[simp] theorem setHeld_crc (v : Bool) (s : State) : (setHeld v s).crc = s.crc := rfl
@[simp] theorem setHeld_held (v : Bool) (s : State) : (setHeld v s).held = v := rfl
@[simp] theorem setHeld_eventQ (v : Bool) (s : State) : (setHeld v s).eventQ = s.eventQ := rfl
@[simp] theorem setHeld_input (v : Bool) (s : State) : (setHeld v s).input = s.input := rfl
@[simp] theorem setHeld_sampled (v : Bool) (s : State) : (setHeld v s).sampled = s.sampled := rfl

/-! ### restartCrc -/

@[simp] theorem restartCrc_cfg (s : State) : (restartCrc s).cfg = s.cfg := rfl
@[simp] theorem restartCrc_cursor (s : State) : (restartCrc s).cursor = s.cursor := rfl
@[simp] theorem restartCrc_esc (s : State) : (restartCrc s).esc = s.esc := rfl
@[simp] theorem restartCrc_id (s : State) : (restartCrc s).id = s.id := rfl
@[simp] theorem restartCrc_idWritten (s : State) : (restartCrc s).idWritten = s.idWritten := rfl
@[simp] theorem restartCrc_length (s : State) : (restartCrc s).length = s.length := rfl
@[simp] theorem restartCrc_lengthWritten (s : State) : (restartCrc s).lengthWritten = s.lengthWritten := rfl
@[simp] theorem restartCrc_pl (s : State) : (restartCrc s).pl = s.pl := rfl
@[simp] theorem restartCrc_crc (s : State) : (restartCrc s).crc = s.cfg.crcInit := rfl
@[simp] theorem restartCrc_held (s : State) : (restartCrc s).held = s.held := rfl
@[simp] theorem restartCrc_eventQ (s : State) : (restartCrc s).eventQ = s.eventQ := rfl
@[simp] theorem restartCrc_input (s : State) : (restartCrc s).input = s.input := rfl
@[simp] theorem restartCrc_sampled (s : State) : (restartCrc s).sampled = s.sampled := rfl

/-! ### accumulate -/

@[simp] theorem accumulate_cfg (b : Byte) (s : State) : (accumulate b s).cfg = s.cfg := rfl
@[simp] theorem accumulate_cursor (b : Byte) (s : State) : (accumulate b s).cursor = s.cursor := rfl
@[simp] theorem accumulate_esc (b : Byte) (s : State) : (accumulate b s).esc = s.esc := rfl
@[simp] theorem accumulate_id (b : Byte) (s : State) : (accumulate b s).id = s.id := rfl
@[simp] theorem accumulate_idWritten (b : Byte) (s : State) : (accumulate b s).idWritten = s.idWritten := rfl
@[simp] theorem accumulate_length (b : Byte) (s : State) : (accumulate b s).length = s.length := rfl
@[simp] theorem accumulate_lengthWritten (b : Byte) (s : State) : (accumulate b s).lengthWritten = s.lengthWritten := rfl
@[simp] theorem accumulate_pl (b : Byte) (s : State) : (accumulate b s).pl = s.pl := rfl
@[simp] theorem accumulate_crc (b : Byte) (s : State) : (accumulate b s).crc = crcStep s.cfg s.crc b := rfl
@[simp] theorem accumulate_held (b : Byte) (s : State) : (accumulate b s).held = s.held := rfl
@[simp] theorem accumulate_eventQ (b : Byte) (s : State) : (accumulate b s).eventQ = s.eventQ := rfl
@[simp] theorem accumulate_input (b : Byte) (s : State) : (accumulate b s).input = s.input := rfl
@[simp] theorem accumulate_sampled (b : Byte) (s : State) : (accumulate b s).sampled = s.sampled := rfl

/-! ### writeId -/

@[simp] theorem writeId_cfg (b : Byte) (s : State) : (writeId b s).cfg = s.cfg := rfl
@[simp] theorem writeId_cursor (b : Byte) (s : State) : (writeId b s).cursor = s.cursor := rfl
@[simp] theorem writeId_esc (b : Byte) (s : State) : (writeId b s).esc = s.esc := rfl
@[simp] theorem writeId_id (b : Byte) (s : State) : (writeId b s).id = b := rfl
@[simp] theorem writeId_idWritten (b : Byte) (s : State) : (writeId b s).idWritten = true := rfl
@[simp] theorem writeId_length (b : Byte) (s : State) : (writeId b s).length = s.length := rfl
@[simp] theorem writeId_lengthWritten (b : Byte) (s : State) : (writeId b s).lengthWritten = s.lengthWritten := rfl
@[simp] theorem writeId_pl (b : Byte) (s : State) : (writeId b s).pl = s.pl := rfl
@[simp] theorem writeId_crc (b : Byte) (s : State) : (writeId b s).crc = s.crc := rfl
@[simp] theorem writeId_held (b : Byte) (s : State) : (writeId b s).held = s.held := rfl
@[simp] theorem writeId_eventQ (b : Byte) (s : State) : (writeId b s).eventQ = s.eventQ := rfl
@[simp] theorem writeId_input (b : Byte) (s : State) : (writeId b s).input = s.input := rfl
@[simp] theorem writeId_sampled (b : Byte) (s : State) : (writeId b s).sampled = s.sampled := rfl

/-! ### writeLength -/

@[simp] theorem writeLength_cfg (b : Byte) (s : State) : (writeLength b s).cfg = s.cfg := rfl
@[simp] theorem writeLength_cursor (b : Byte) (s : State) : (writeLength b s).cursor = s.cursor := rfl
@[simp] theorem writeLength_esc (b : Byte) (s : State) : (writeLength b s).esc = s.esc := rfl
@[simp] theorem writeLength_id (b : Byte) (s : State) : (writeLength b s).id = s.id := rfl
@[simp] theorem writeLength_idWritten (b : Byte) (s : State) : (writeLength b s).idWritten = s.idWritten := rfl
@[simp] theorem writeLength_length (b : Byte) (s : State) : (writeLength b s).length = b := rfl
@[simp] theorem writeLength_lengthWritten (b : Byte) (s : State) : (writeLength b s).lengthWritten = true := rfl
@[simp] theorem writeLength_pl (b : Byte) (s : State) : (writeLength b s).pl = s.pl := rfl
@[simp] theorem writeLength_crc (b : Byte) (s : State) : (writeLength b s).crc = s.crc := rfl
@[simp] theorem writeLength_held (b : Byte) (s : State) : (writeLength b s).held = s.held := rfl
@[simp] theorem writeLength_eventQ (b : Byte) (s : State) : (writeLength b s).eventQ = s.eventQ := rfl
@[simp] theorem writeLength_input (b : Byte) (s : State) : (writeLength b s).input = s.input := rfl
@[simp] theorem writeLength_sampled (b : Byte) (s : State) : (writeLength b s).sampled = s.sampled := rfl

/-! ### writePayload -/

@[simp] theorem writePayload_cfg (i : Nat) (b : Byte) (s : State) : (writePayload i b s).cfg = s.cfg := rfl
@[simp] theorem writePayload_cursor (i : Nat) (b : Byte) (s : State) : (writePayload i b s).cursor = s.cursor := rfl
@[simp] theorem writePayload_esc (i : Nat) (b : Byte) (s : State) : (writePayload i b s).esc = s.esc := rfl
@[simp] theorem writePayload_id (i : Nat) (b : Byte) (s : State) : (writePayload i b s).id = s.id := rfl
@[simp] theorem writePayload_idWritten (i : Nat) (b : Byte) (s : State) : (writePayload i b s).idWritten = s.idWritten := rfl
@[simp] theorem writePayload_length (i : Nat) (b : Byte) (s : State) : (writePayload i b s).length = s.length := rfl
@[simp] theorem writePayload_lengthWritten (i : Nat) (b : Byte) (s : State) : (writePayload i b s).lengthWritten = s.lengthWritten := rfl
@[simp] theorem writePayload_pl (i : Nat) (b : Byte) (s : State) : (writePayload i b s).pl = Memory.write s.pl i b := rfl
@[simp] theorem writePayload_crc (i : Nat) (b : Byte) (s : State) : (writePayload i b s).crc = s.crc := rfl
@[simp] theorem writePayload_held (i : Nat) (b : Byte) (s : State) : (writePayload i b s).held = s.held := rfl
@[simp] theorem writePayload_eventQ (i : Nat) (b : Byte) (s : State) : (writePayload i b s).eventQ = s.eventQ := rfl
@[simp] theorem writePayload_input (i : Nat) (b : Byte) (s : State) : (writePayload i b s).input = s.input := rfl
@[simp] theorem writePayload_sampled (i : Nat) (b : Byte) (s : State) : (writePayload i b s).sampled = s.sampled := rfl

/-! ### unwriteFields -/

@[simp] theorem unwriteFields_cfg (s : State) : (unwriteFields s).cfg = s.cfg := rfl
@[simp] theorem unwriteFields_cursor (s : State) : (unwriteFields s).cursor = s.cursor := rfl
@[simp] theorem unwriteFields_esc (s : State) : (unwriteFields s).esc = s.esc := rfl
@[simp] theorem unwriteFields_id (s : State) : (unwriteFields s).id = 0 := rfl
@[simp] theorem unwriteFields_idWritten (s : State) : (unwriteFields s).idWritten = false := rfl
@[simp] theorem unwriteFields_length (s : State) : (unwriteFields s).length = 0 := rfl
@[simp] theorem unwriteFields_lengthWritten (s : State) : (unwriteFields s).lengthWritten = false := rfl
@[simp] theorem unwriteFields_pl (s : State) : (unwriteFields s).pl = [] := rfl
@[simp] theorem unwriteFields_crc (s : State) : (unwriteFields s).crc = s.crc := rfl
@[simp] theorem unwriteFields_held (s : State) : (unwriteFields s).held = s.held := rfl
@[simp] theorem unwriteFields_eventQ (s : State) : (unwriteFields s).eventQ = s.eventQ := rfl
@[simp] theorem unwriteFields_input (s : State) : (unwriteFields s).input = s.input := rfl
@[simp] theorem unwriteFields_sampled (s : State) : (unwriteFields s).sampled = s.sampled := rfl

/-! ### setSampled -/

@[simp] theorem setSampled_cfg (x : Sample) (s : State) : (setSampled x s).cfg = s.cfg := rfl
@[simp] theorem setSampled_cursor (x : Sample) (s : State) : (setSampled x s).cursor = s.cursor := rfl
@[simp] theorem setSampled_esc (x : Sample) (s : State) : (setSampled x s).esc = s.esc := rfl
@[simp] theorem setSampled_id (x : Sample) (s : State) : (setSampled x s).id = s.id := rfl
@[simp] theorem setSampled_idWritten (x : Sample) (s : State) : (setSampled x s).idWritten = s.idWritten := rfl
@[simp] theorem setSampled_length (x : Sample) (s : State) : (setSampled x s).length = s.length := rfl
@[simp] theorem setSampled_lengthWritten (x : Sample) (s : State) : (setSampled x s).lengthWritten = s.lengthWritten := rfl
@[simp] theorem setSampled_pl (x : Sample) (s : State) : (setSampled x s).pl = s.pl := rfl
@[simp] theorem setSampled_crc (x : Sample) (s : State) : (setSampled x s).crc = s.crc := rfl
@[simp] theorem setSampled_held (x : Sample) (s : State) : (setSampled x s).held = s.held := rfl
@[simp] theorem setSampled_eventQ (x : Sample) (s : State) : (setSampled x s).eventQ = s.eventQ := rfl
@[simp] theorem setSampled_input (x : Sample) (s : State) : (setSampled x s).input = s.input := rfl
@[simp] theorem setSampled_sampled (x : Sample) (s : State) : (setSampled x s).sampled = some x := rfl

/-! ### the error operations -/

theorem enterError_eq (e : Event) (s : State) : enterError e s = { s with cursor := .idle, eventQ := e } := rfl

theorem startFrame_eq (s : State) :
    startFrame s = { s with cursor := .awaitingId, esc := false, crc := s.cfg.crcInit, eventQ := .none } := rfl

/-! ### selection and fetch -/

theorem whenSelected_pos {sel : Prop} [Decidable sel] (h : sel) (t : State) : whenSelected sel t = .next t := if_pos h

theorem whenSelected_neg {sel : Prop} [Decidable sel] (h : ¬ sel) (t : State) :
    whenSelected sel t = .refused .operationNotSelected := if_neg h

/-- A guarded row answers a next state exactly where it is selected, and then its own. -/
theorem whenSelected_next {sel : Prop} [Decidable sel] {t u : State} :
    whenSelected sel t = .next u ↔ sel ∧ u = t := by
  unfold whenSelected
  split
  · rename_i h
    exact ⟨fun e => ⟨h, by cases e; rfl⟩, fun e => by rw [e.2]⟩
  · rename_i h
    exact ⟨(fun e => nomatch e), fun e => absurd e.1 h⟩

theorem fetch_nil {s : State} (h : s.input = []) : fetch s = (.edge 0x000, s) := by
  simp [fetch, h]

theorem fetch_cons {s : State} {d : Stimulus} {rest : List Stimulus} (h : s.input = d :: rest) :
    fetch s = (d, { s with input := rest }) := by
  simp [fetch, h]

/-- Fetching changes nothing but the queue. -/
theorem fetch_frame (s : State) : (fetch s).2 = { s with input := s.input.tail } := by
  cases s with
  | mk _ _ _ _ _ _ _ _ _ _ _ input _ => cases input <;> rfl

end Sys2Proof.Machine
end

