-- ==== Sys2Proof/Laws/Exec.lean ====
section
/-! SUPPORT. What each meaning can do: one inversion lemma per row that has a condition ("it answers next t exactly when
…, and then t is …"), and the field dispatch as `exec` of the selected row. -/

namespace Sys2Proof.Machine

theorem execReset_eq (s : State) :
    execReset s =
      .next
        { s with
          cursor := .idle, esc := false, crc := s.cfg.crcInit, held := false, eventQ := .none,
          id := 0, idWritten := false, length := 0, lengthWritten := false, pl := [] } := rfl

theorem execCEscSet_next {s t : State} :
    execCEscSet s = .next t ↔ s.esc = false ∧ t = { s with esc := true, eventQ := .none } :=
  whenSelected_next

theorem execCPayload_next {b : Byte} {s t : State} :
    execCPayload b s = .next t ↔
      ∃ i, s.cursor = .payload i ∧ i < s.cfg.maxp ∧ i + 1 < s.length.toNat ∧
        t =
          { s with
            pl := Memory.write s.pl i b, crc := crcStep s.cfg s.crc b, cursor := .payload (i + 1),
            eventQ := .none } := by
  unfold execCPayload
  split
  · rename_i i hc
    rw [whenSelected_next]
    constructor
    · rintro ⟨⟨h1, h2⟩, rfl⟩
      exact ⟨i, hc, h1, h2, rfl⟩
    · rintro ⟨j, hj, h1, h2, rfl⟩
      obtain rfl : i = j := by rw [hc] at hj; exact Cursor.payload.inj hj
      exact ⟨⟨h1, h2⟩, rfl⟩
  · rename_i hc
    exact ⟨(fun e => nomatch e), fun ⟨i, hi, _⟩ => absurd hi (hc i)⟩

theorem execCPayloadLast_next {b : Byte} {s t : State} :
    execCPayloadLast b s = .next t ↔
      ∃ i, s.cursor = .payload i ∧ i < s.cfg.maxp ∧ i + 1 = s.length.toNat ∧
        t =
          { s with
            pl := Memory.write s.pl i b, crc := crcStep s.cfg s.crc b, cursor := .awaitingChecksum,
            eventQ := .none } := by
  unfold execCPayloadLast
  split
  · rename_i i hc
    rw [whenSelected_next]
    constructor
    · rintro ⟨⟨h1, h2⟩, rfl⟩
      exact ⟨i, hc, h1, h2, rfl⟩
    · rintro ⟨j, hj, h1, h2, rfl⟩
      obtain rfl : i = j := by rw [hc] at hj; exact Cursor.payload.inj hj
      exact ⟨⟨h1, h2⟩, rfl⟩
  · rename_i hc
    exact ⟨(fun e => nomatch e), fun ⟨i, hi, _⟩ => absurd hi (hc i)⟩

theorem execCId_next {b : Byte} {s t : State} :
    execCId b s = .next t ↔
      s.cursor = .awaitingId ∧
        t =
          { s with
            id := b, idWritten := true, held := false, crc := crcStep s.cfg s.crc b,
            cursor := .awaitingLength, eventQ := .none } :=
  whenSelected_next

theorem execCLen_next {b : Byte} {s t : State} :
    execCLen b s = .next t ↔
      (s.cursor = .awaitingLength ∧ b ≠ 0 ∧ b.toNat ≤ s.cfg.maxp) ∧
        t =
          { s with
            length := b, lengthWritten := true, crc := crcStep s.cfg s.crc b, cursor := .payload 0,
            eventQ := .none } :=
  whenSelected_next

theorem execCLenZero_next {s t : State} :
    execCLenZero s = .next t ↔
      s.cursor = .awaitingLength ∧
        t =
          { s with
            length := 0, lengthWritten := true, crc := crcStep s.cfg s.crc 0,
            cursor := .awaitingChecksum, eventQ := .none } :=
  whenSelected_next

theorem execCLenOverflow_next {b : Byte} {s t : State} :
    execCLenOverflow b s = .next t ↔
      (s.cursor = .awaitingLength ∧ s.cfg.maxp < b.toNat) ∧
        t = { s with cursor := .idle, eventQ := .lenOverflow } :=
  whenSelected_next

theorem execCChecksumOk_next {b : Byte} {s t : State} :
    execCChecksumOk b s = .next t ↔
      (s.cursor = .awaitingChecksum ∧ b = crcFinal s.cfg s.crc) ∧
        t = { s with held := true, cursor := .idle, eventQ := .frameOk } :=
  whenSelected_next

theorem execCChecksumBad_next {b : Byte} {s t : State} :
    execCChecksumBad b s = .next t ↔
      (s.cursor = .awaitingChecksum ∧ b ≠ crcFinal s.cfg s.crc) ∧
        t = { s with held := true, cursor := .idle, eventQ := .crcMismatch } :=
  whenSelected_next

theorem execCIdleNoise_next {b : Byte} {s t : State} :
    execCIdleNoise b s = .next t ↔ s.cursor = .idle ∧ t = { s with eventQ := .none } :=
  whenSelected_next

/-! What the data ports show. -/

@[simp] theorem outId_value (s : State) : (outId s).value = s.id := rfl

@[simp] theorem outId_written (s : State) : (outId s).written = s.idWritten := rfl

@[simp] theorem outLength_value (s : State) : (outLength s).value = s.length := rfl

@[simp] theorem outLength_written (s : State) : (outLength s).written = s.lengthWritten := rfl

/-- A written cell shows its byte. -/
theorem outCell_some {m : Memory} {a : Nat} {v : Byte} (h : Memory.read m a = some v) : outCell m a = ⟨v, true⟩ := by
  simp [outCell, h]

/-- A cell not written since reset is reported so. -/
@[simp] theorem outCell_written (m : Memory) (a : Nat) : (outCell m a).written = (Memory.read m a).isSome := by
  unfold outCell
  split <;> simp_all

@[simp] theorem answerRead_eq (x : Sample) (s : State) : answerRead x s = .next { s with sampled := some x } := rfl

/-- READ_PAYLOAD answers a next state exactly where its address has a cell. -/
theorem execReadPayload_next {addr : Byte} {s t : State} :
    execReadPayload addr s = .next t ↔
      addr.toNat < s.cfg.maxp ∧ t = { s with sampled := some (.payload (outCell s.pl addr.toNat)) } := by
  unfold execReadPayload plData
  by_cases h : s.cfg.maxp ≤ addr.toNat
  · simp only [h, if_true]
    exact ⟨(fun e => nomatch e), fun e => absurd e.1 (by omega)⟩
  · simp only [h, if_false, answerRead_eq, Host.Outcome.next.injEq, eq_comm (b := t)]
    exact ⟨fun e => ⟨by omega, e⟩, fun e => e.2⟩

/-- READ_PAYLOAD faults exactly where its address has no cell. -/
theorem execReadPayload_fault {addr : Byte} {s : State} {f : Fault} :
    execReadPayload addr s = .fault f ↔ s.cfg.maxp ≤ addr.toNat ∧ f = .plAddrOutOfRange := by
  unfold execReadPayload plData
  by_cases h : s.cfg.maxp ≤ addr.toNat
  · simp only [h, if_true, true_and]
  · simp only [h, if_false, answerRead_eq, false_and, reduceCtorEq]

/-- `DISPATCH(s, b)` is the meaning of the row that `b` selects. -/
theorem dispatchField_eq (b : Byte) (s : State) : dispatchField b s = exec (selectField s b) s := by
  cases hc : s.cursor <;> simp only [dispatchField, selectField, hc] <;> first | rfl | (split_ifs <;> rfl)

theorem execCUnescape_next {x : Byte} {s t : State} :
    execCUnescape x s = .next t ↔
      (s.esc = true ∧ x ≠ s.cfg.delim) ∧
        exec (selectField s (x ^^^ s.cfg.esc)) { s with esc := false } = .next t := by
  unfold execCUnescape
  split
  · rename_i h
    rw [dispatchField_eq]
    simp only [logicalByte, h.1, if_true, h.2, ne_eq, not_false_eq_true, and_self, true_and]
    rfl
  · rename_i h
    exact ⟨(fun e => nomatch e), fun e => absurd e.1 h⟩

end Sys2Proof.Machine
end

