-- ==== Sys2Proof/Laws/Memory.lean ====
section
/-! SUPPORT. The laws of the payload buffer: read after write, and the canonical form. -/

namespace Sys2Proof.Machine

@[simp] theorem Memory.read_nil (a : Nat) : Memory.read [] a = none := rfl

/-- The cell just written reads as the byte written. -/
theorem Memory.read_write_same (m : Memory) (a : Nat) (v : Byte) : Memory.read (Memory.write m a v) a = some v := by
  induction m with
  | nil => simp [Memory.write, Memory.read]
  | cons p m ih =>
    obtain ⟨k, w⟩ := p
    unfold Memory.write
    split
    · simp [Memory.read]
    · split
      · simp [Memory.read]
      · rename_i h
        rw [Memory.read, if_neg (Ne.symm h), ih]

/-- Every other cell reads as before. -/
theorem Memory.read_write_other (m : Memory) {a k : Nat} (v : Byte) (h : k ≠ a) :
    Memory.read (Memory.write m a v) k = Memory.read m k := by
  induction m with
  | nil => simp [Memory.write, Memory.read, Ne.symm h]
  | cons p m ih =>
    obtain ⟨j, w⟩ := p
    unfold Memory.write
    split
    · rw [Memory.read, if_neg (Ne.symm h)]
    · split
      · rename_i e
        subst e
        rw [Memory.read, if_neg (Ne.symm h), Memory.read, if_neg (Ne.symm h)]
      · simp only [Memory.read, ih]

theorem Memory.read_write (m : Memory) (a k : Nat) (v : Byte) :
    Memory.read (Memory.write m a v) k = if k = a then some v else Memory.read m k := by
  split
  · rename_i h
    rw [h, Memory.read_write_same]
  · rename_i h
    exact Memory.read_write_other m v h

/-- The least index of a written buffer is the old least index or the one written. -/
theorem Memory.write_head (m : Memory) (a : Nat) (v : Byte) :
    ∃ p rest, Memory.write m a v = p :: rest ∧ (p.1 = a ∨ ∃ q tail, m = q :: tail ∧ p.1 = q.1 ∧ q.1 < a) := by
  cases m with
  | nil => exact ⟨(a, v), [], rfl, .inl rfl⟩
  | cons p m =>
    obtain ⟨k, w⟩ := p
    unfold Memory.write
    split
    · exact ⟨_, _, rfl, .inl rfl⟩
    · split
      · exact ⟨_, _, rfl, .inl rfl⟩
      · exact ⟨_, _, rfl, .inr ⟨_, _, rfl, rfl, by simp only; omega⟩⟩

theorem Memory.wf_tail {p : Host.Cell} {m : Memory} (h : Memory.wf (p :: m) = true) : Memory.wf m = true := by
  cases m with
  | nil => rfl
  | cons q m => simp only [Memory.wf, Bool.and_eq_true] at h; exact h.2

/-- A write keeps the canonical form. -/
theorem Memory.wf_write {m : Memory} (h : Memory.wf m = true) (a : Nat) (v : Byte) :
    Memory.wf (Memory.write m a v) = true := by
  induction m with
  | nil => rfl
  | cons p m ih =>
    obtain ⟨k, w⟩ := p
    have hm := Memory.wf_tail h
    unfold Memory.write
    split
    · rename_i hlt
      simp [Memory.wf, hlt, h]
    · split
      · rename_i e
        subst e
        cases m with
        | nil => rfl
        | cons q m => simpa [Memory.wf] using h
      · obtain ⟨p, rest, e, hp⟩ := Memory.write_head m a v
        have hw := ih hm
        rw [e] at hw ⊢
        simp only [Memory.wf, Bool.and_eq_true, decide_eq_true_eq]
        refine ⟨?_, hw⟩
        rcases hp with hp | ⟨q, tail, rfl, hp, _⟩
        · omega
        · simp only [Memory.wf, Bool.and_eq_true, decide_eq_true_eq] at h
          omega

/-- The cells up to `n + 1` are the cells up to `n` and cell `n`. -/
theorem Memory.take_succ {m : Memory} {n : Nat} {v : Byte} (h : Memory.read m n = some v) :
    Memory.take m (n + 1) = Memory.take m n ++ [v] := by
  simp [Memory.take, List.range_succ, h]

@[simp] theorem Memory.take_zero (m : Memory) : Memory.take m 0 = [] := rfl

/-- Cells read alike are taken alike. -/
theorem Memory.take_congr {m m' : Memory} {n : Nat} (h : ∀ a, a < n → Memory.read m' a = Memory.read m a) :
    Memory.take m' n = Memory.take m n := by
  unfold Memory.take
  exact List.filterMap_congr fun a ha => h a (List.mem_range.mp ha)

/-- Taking written cells drops none. -/
theorem Memory.length_take {m : Memory} {n : Nat} (h : ∀ a, a < n → (Memory.read m a).isSome = true) :
    (Memory.take m n).length = n := by
  induction n with
  | zero => rfl
  | succ n ih =>
    obtain ⟨v, hv⟩ := Option.isSome_iff_exists.mp (h n (by omega))
    rw [Memory.take_succ hv, List.length_append, ih fun a ha => h a (by omega)]
    rfl

/-- Writing cell `n` extends the cells taken by the byte written. -/
theorem Memory.take_write (m : Memory) (n : Nat) (v : Byte) :
    Memory.take (Memory.write m n v) (n + 1) = Memory.take m n ++ [v] := by
  rw [Memory.take_succ (Memory.read_write_same m n v)]
  congr 1
  exact Memory.take_congr fun a ha => Memory.read_write_other m v (by omega)

end Sys2Proof.Machine
end

