-- ==== Sys2Proof/Laws/PerInstr.lean ====
section
/-! SUPPORT. Lemma families about each operation as syntax, one lemma per constructor. -/

namespace Sys2Proof.Laws.TableBits

open Sys2Proof

/-- What an operation presents is an edge whose word has the `match` bits of its row of spec/opcode_table.json under
the row's `mask` (with `match = 0x100 | DELIM` and `0x100 | ESC`, as the rows' notes say), or, for a row with no
`match`, a port read. -/
def fits (c : Config) : Instr → Stimulus → Prop
  | .reset, .edge iw => iw &&& 0x400 = 0x400
  | .clear, .edge iw => iw &&& 0x600 = 0x200
  | .idleCycle, .edge iw => iw &&& 0x700 = 0x000
  | .cDelim, .edge iw => iw &&& 0x7FF = 0x100 ||| c.delim.setWidth 11
  | .cEscSet, .edge iw => iw &&& 0x7FF = 0x100 ||| c.esc.setWidth 11
  | .cUnescape _, .edge iw => iw &&& 0x700 = 0x100
  | .cPayload _, .edge iw => iw &&& 0x700 = 0x100
  | .cPayloadLast _, .edge iw => iw &&& 0x700 = 0x100
  | .cId _, .edge iw => iw &&& 0x700 = 0x100
  | .cLen _, .edge iw => iw &&& 0x700 = 0x100
  | .cLenZero, .edge iw => iw &&& 0x700 = 0x100
  | .cLenOverflow _, .edge iw => iw &&& 0x700 = 0x100
  | .cChecksumOk _, .edge iw => iw &&& 0x700 = 0x100
  | .cChecksumBad _, .edge iw => iw &&& 0x700 = 0x100
  | .cIdleNoise _, .edge iw => iw &&& 0x700 = 0x100
  | .readId, d => d = .readId
  | .readLength, d => d = .readLength
  | .readPayload addr, d => d = .readPayload addr
  | .readStatus, d => d = .readStatus
  | _, _ => False

/-- The encoder's word for the operation fits its row. -/
def Statement (i : Instr) : Prop := ∀ c : Config, fits c i (encode c i)

/-- A consuming word has `rst = clear = 0` and `in_valid = 1`. -/
theorem byteWord_mask (x : Byte) : byteWord x &&& 0x700 = 0x100 := by
  revert x; decide

theorem byteWord_all (x : Byte) : byteWord x &&& 0x7FF = 0x100 ||| x.setWidth 11 := by
  revert x; decide

theorem reset : Statement .reset := fun _ => by simp only [fits, encode]; decide
theorem clear : Statement .clear := fun _ => by simp only [fits, encode]; decide
theorem idleCycle : Statement .idleCycle := fun _ => by simp only [fits, encode]; decide
theorem cDelim : Statement .cDelim := fun c => byteWord_all c.delim
theorem cEscSet : Statement .cEscSet := fun c => byteWord_all c.esc
theorem cUnescape (x : Byte) : Statement (.cUnescape x) := fun _ => byteWord_mask x
theorem cPayload (b : Byte) : Statement (.cPayload b) := fun _ => byteWord_mask b
theorem cPayloadLast (b : Byte) : Statement (.cPayloadLast b) := fun _ => byteWord_mask b
theorem cId (b : Byte) : Statement (.cId b) := fun _ => byteWord_mask b
theorem cLen (b : Byte) : Statement (.cLen b) := fun _ => byteWord_mask b
theorem cLenZero : Statement .cLenZero := fun _ => byteWord_mask 0
theorem cLenOverflow (b : Byte) : Statement (.cLenOverflow b) := fun _ => byteWord_mask b
theorem cChecksumOk (b : Byte) : Statement (.cChecksumOk b) := fun _ => byteWord_mask b
theorem cChecksumBad (b : Byte) : Statement (.cChecksumBad b) := fun _ => byteWord_mask b
theorem cIdleNoise (b : Byte) : Statement (.cIdleNoise b) := fun _ => byteWord_mask b
theorem readId : Statement .readId := fun _ => rfl
theorem readLength : Statement .readLength := fun _ => rfl
theorem readPayload (addr : Byte) : Statement (.readPayload addr) := fun _ => rfl
theorem readStatus : Statement .readStatus := fun _ => rfl

end Sys2Proof.Laws.TableBits
end

