-- ==== Sys2Proof/Tests/Slice0.lean ====
section
/-! SUPPORT. The model's own tests: well-formedness smoke tests, the decoding of every row from a word written out from
R40 and R49, one-step vectors of spec/95_test_vectors.md, and a witness for every statement with hypotheses. -/

namespace Sys2Proof.Tests

open Sys2Proof Sys2Proof.Machine

/-! ## Helpers -/

/-- The result is a next state that passes `p`. -/
def goesTo (r : Result) (p : State → Bool) : Bool :=
  match r with
  | .next t => p t
  | _ => false

/-- The result is fault `f`. -/
def faultsWith (r : Result) (f : Fault) : Bool :=
  match r with
  | .fault g => g == f
  | _ => false

/-- The last read reported UNWRITTEN. -/
def reportsUnwritten (t : State) : Bool :=
  match t.sampled with
  | some (.id r) | some (.length r) | some (.payload r) => !r.written
  | _ => false

/-- The result is refusal `f`. -/
def refusesWith (r : Result) (f : Refusal) : Bool :=
  match r with
  | .refused g => g == f
  | _ => false

/-- The registers as spec/95_test_vectors.md lists them, and the event. -/
def regs (t : State) (c : Cursor) (esc : Bool) (crc : Byte) (id len : Option Byte) (held : Bool) (pl : Memory)
    (e : Event) : Bool :=
  t.cursor == c && t.esc == esc && t.crc == crc && (if t.idWritten then some t.id else none) == id &&
    (if t.lengthWritten then some t.length else none) == len && t.held == held && t.pl == pl && t.eventQ == e

/-- After `7E` (95_test_vectors.md L1-1). -/
def atId (w : List Stimulus) : State := { State.reset with cursor := .awaitingId, input := w }

/-- After `7E 01`. -/
def atLen (w : List Stimulus) : State :=
  { State.reset with cursor := .awaitingLength, crc := 0x07, id := 0x01, idWritten := true, input := w }

/-- After `7E 01 02`. -/
def atPay0 (w : List Stimulus) : State :=
  { State.reset with
    cursor := .payload 0, crc := 0x1B, id := 0x01, idWritten := true, length := 0x02, lengthWritten := true,
    input := w }

/-- After `7E 01 02 10`. -/
def atPay1 (w : List Stimulus) : State :=
  { State.reset with
    cursor := .payload 1, crc := 0x31, id := 0x01, idWritten := true, length := 0x02, lengthWritten := true,
    pl := [(0, 0x10)], input := w }

/-- After `7E 01 02 10 7D`. -/
def atPay1Esc (w : List Stimulus) : State := { atPay1 w with esc := true }

/-- After `7E 01 02 10 7D 03`. -/
def atCheck (w : List Stimulus) : State :=
  { State.reset with
    cursor := .awaitingChecksum, crc := 0xEA, id := 0x01, idWritten := true, length := 0x02, lengthWritten := true,
    pl := [(0, 0x10), (1, 0x7E)], input := w }

/-- After `7E 01 02 10 7D 03 EA`. -/
def atHeld (w : List Stimulus) : State :=
  { atCheck w with cursor := .idle, held := true, eventQ := .frameOk }

/-! ## Well-formedness: an ill-formed term for each check -/

theorem test_wf_reference_escSet : Instr.wellFormed referenceConfig .cEscSet = true := by decide
theorem test_illformed_escSet_delim : Instr.wellFormed { referenceConfig with esc := 0x7E } .cEscSet = false := by decide
theorem test_illformed_unescape_delim : Instr.wellFormed referenceConfig (.cUnescape 0x7E) = false := by decide
theorem test_illformed_payload_delim : Instr.wellFormed referenceConfig (.cPayload 0x7E) = false := by decide
theorem test_illformed_payloadLast_marker : Instr.wellFormed referenceConfig (.cPayloadLast 0x7D) = false := by decide
theorem test_illformed_id_delim : Instr.wellFormed referenceConfig (.cId 0x7E) = false := by decide
theorem test_illformed_len_zero : Instr.wellFormed referenceConfig (.cLen 0x00) = false := by decide
theorem test_illformed_len_above_maxp : Instr.wellFormed referenceConfig (.cLen 0x09) = false := by decide
theorem test_illformed_len_marker :
    Instr.wellFormed { referenceConfig with maxp := 255 } (.cLen 0x7D) = false := by decide
theorem test_illformed_lenZero_reserved :
    Instr.wellFormed { referenceConfig with delim := 0x00 } .cLenZero = false := by decide
theorem test_illformed_lenOverflow_maxp : Instr.wellFormed referenceConfig (.cLenOverflow 0x08) = false := by decide
theorem test_illformed_lenOverflow_delim : Instr.wellFormed referenceConfig (.cLenOverflow 0x7E) = false := by decide
theorem test_illformed_checksumOk_marker : Instr.wellFormed referenceConfig (.cChecksumOk 0x7D) = false := by decide
theorem test_illformed_checksumBad_delim : Instr.wellFormed referenceConfig (.cChecksumBad 0x7E) = false := by decide
theorem test_illformed_idleNoise_marker : Instr.wellFormed referenceConfig (.cIdleNoise 0x7D) = false := by decide
theorem test_illformed_config_collision :
    Config.admitted { referenceConfig with esc := 0x7E } = false ∧
      Config.admitted { referenceConfig with esc := 0x00 } = false ∧
      Config.admitted { referenceConfig with delim := 0x00 } = false ∧
      Config.admitted { referenceConfig with maxp := 256 } = false := by decide

/-! ## Decoding: rst, clear, in_valid, in_byte from the top (R40); the row from R49 -/

theorem test_decode_reset : decode (atPay1Esc []) (.edge 0b1_1_1_01111110) = .reset := by decide
theorem test_decode_clear : decode (atPay1Esc []) (.edge 0b0_1_1_01111110) = .clear := by decide
theorem test_decode_idleCycle : decode (atPay1Esc []) (.edge 0b0_0_0_10101011) = .idleCycle := by decide
theorem test_decode_delim : decode (atPay1Esc []) (.edge 0b0_0_1_01111110) = .cDelim := by decide
theorem test_decode_escSet : decode (atPay1 []) (.edge 0b0_0_1_01111101) = .cEscSet := by decide
theorem test_decode_unescape : decode (atPay1Esc []) (.edge 0b0_0_1_01111101) = .cUnescape 0x7D := by decide
theorem test_decode_payload : decode (atPay0 []) (.edge 0b0_0_1_00010000) = .cPayload 0x10 := by decide
theorem test_decode_payloadLast : decode (atPay1 []) (.edge 0b0_0_1_00010001) = .cPayloadLast 0x11 := by decide
theorem test_decode_id : decode (atId []) (.edge 0b0_0_1_11111111) = .cId 0xFF := by decide
theorem test_decode_len : decode (atLen []) (.edge 0b0_0_1_00001000) = .cLen 0x08 := by decide
theorem test_decode_lenZero : decode (atLen []) (.edge 0b0_0_1_00000000) = .cLenZero := by decide
theorem test_decode_lenOverflow : decode (atLen []) (.edge 0b0_0_1_00001001) = .cLenOverflow 0x09 := by decide
theorem test_decode_checksumOk : decode (atCheck []) (.edge 0b0_0_1_11101010) = .cChecksumOk 0xEA := by decide
theorem test_decode_checksumBad : decode (atCheck []) (.edge 0b0_0_1_11101011) = .cChecksumBad 0xEB := by decide
theorem test_decode_idleNoise : decode (atHeld []) (.edge 0b0_0_1_01010101) = .cIdleNoise 0x55 := by decide
theorem test_decode_reads :
    decode (atHeld []) .readId = .readId ∧ decode (atHeld []) .readLength = .readLength ∧
      decode (atHeld []) (.readPayload 0x01) = .readPayload 0x01 ∧
      decode (atHeld []) .readStatus = .readStatus := by decide

/-- Two bytes, the low byte first (log 10): 0x17E is byte 7E, then byte 01. -/
theorem test_input_word_bytes : inputWordBytes 0x17E = [0x7E, 0x01] := by decide
theorem test_decode_table_word : decodeTableWord 16 0x17E = some .cDelim := by decide
theorem test_decode_table_word_high_bit : decodeTableWord 16 0x97E = none := by decide
theorem test_fetch_word :
    goesTo (step (State.reset.withFetchWord 16 0x17E)) (fun t => t.cursor == .awaitingId) = true := by decide

/-! ## One step each: the vectors of spec/95_test_vectors.md -/

/-- V-D2: a delimiter in mid-escape and mid-payload. -/
theorem test_VD2 :
    goesTo (step (atPay1Esc (byteEdges [0x7E])))
      (regs · .awaitingId false 0x00 (some 0x01) (some 0x02) false [(0, 0x10)] .none) = true := by decide

/-- V-D4: `held` stays until the id byte. -/
theorem test_VD4 :
    goesTo (step (atHeld (byteEdges [0x7E])))
      (regs · .awaitingId false 0x00 (some 0x01) (some 0x02) true [(0, 0x10), (1, 0x7E)] .none) = true := by decide

/-- V-E1: a prefix in IDLE. -/
theorem test_VE1 :
    goesTo (step { State.reset with input := byteEdges [0x7D] })
      (regs · .idle true 0x00 none none false [] .none) = true := by decide

/-- V-E2: a prefix before the length byte. -/
theorem test_VE2 :
    goesTo (step (atLen (byteEdges [0x7D])))
      (regs · .awaitingLength true 0x07 (some 0x01) none false [] .none) = true := by decide

/-- V-U1: `03 ^ 7D = 7E` is data. -/
theorem test_VU1 :
    goesTo (step (atPay1Esc (byteEdges [0x03])))
      (regs · .awaitingChecksum false 0xEA (some 0x01) (some 0x02) false [(0, 0x10), (1, 0x7E)] .none) = true := by
  decide

/-- V-U2: ESC ESC is 0x00. -/
theorem test_VU2 :
    goesTo (step { atPay0 (byteEdges [0x7D]) with esc := true })
      (regs · (.payload 1) false 0x41 (some 0x01) (some 0x02) false [(0, 0x00)] .none) = true := by decide

/-- V-P1: the first of two payload bytes. -/
theorem test_VP1 :
    goesTo (step (atPay0 (byteEdges [0x10])))
      (regs · (.payload 1) false 0x31 (some 0x01) (some 0x02) false [(0, 0x10)] .none) = true := by decide

/-- V-P4: the last of two. -/
theorem test_VP4 :
    goesTo (step (atPay1 (byteEdges [0x11])))
      (regs · .awaitingChecksum false 0xE0 (some 0x01) (some 0x02) false [(0, 0x10), (1, 0x11)] .none) = true := by
  decide

/-- V-P2: length 1, the first byte is the last. -/
theorem test_VP2 :
    goesTo (step { atPay0 (byteEdges [0xAA]) with id := 0x09, length := 0x01, crc := 0xBA })
      (regs · .awaitingChecksum false 0x70 (some 0x09) (some 0x01) false [(0, 0xAA)] .none) = true := by decide

/-- V-I1: the id byte ends the held packet. -/
theorem test_VI1 :
    goesTo (step { atHeld (byteEdges [0x01]) with cursor := .awaitingId, crc := 0x00, eventQ := .none })
      (regs · .awaitingLength false 0x07 (some 0x01) (some 0x02) false [(0, 0x10), (1, 0x7E)] .none) = true := by
  decide

/-- V-I2: any id value. -/
theorem test_VI2 :
    goesTo (step (atId (byteEdges [0xFF])))
      (regs · .awaitingLength false 0xF3 (some 0xFF) none false [] .none) = true := by decide

/-- V-L1: a length. -/
theorem test_VL1 :
    goesTo (step (atLen (byteEdges [0x02])))
      (regs · (.payload 0) false 0x1B (some 0x01) (some 0x02) false [] .none) = true := by decide

/-- V-L2: `MAXP` is accepted. -/
theorem test_VL2 :
    goesTo (step (atLen (byteEdges [0x08])))
      (regs · (.payload 0) false 0x2D (some 0x01) (some 0x08) false [] .none) = true := by decide

/-- V-L3: a zero length. -/
theorem test_VL3 :
    goesTo (step { atLen (byteEdges [0x00]) with id := 0x05, crc := 0x1B })
      (regs · .awaitingChecksum false 0x41 (some 0x05) (some 0x00) false [] .none) = true := by decide

/-- V-L4: `MAXP + 1`. -/
theorem test_VL4 :
    goesTo (step (atLen (byteEdges [0x09])))
      (regs · .idle false 0x07 (some 0x01) none false [] .lenOverflow) = true := by decide

/-- V-L5: the largest length. -/
theorem test_VL5 :
    goesTo (step (atLen (byteEdges [0xFF])))
      (regs · .idle false 0x07 (some 0x01) none false [] .lenOverflow) = true := by decide

/-- V-K1: a matching checksum. -/
theorem test_VK1 :
    goesTo (step (atCheck (byteEdges [0xEA])))
      (regs · .idle false 0xEA (some 0x01) (some 0x02) true [(0, 0x10), (1, 0x7E)] .frameOk) = true := by decide

/-- V-K2: a checksum wrong by one bit. -/
theorem test_VK2 :
    goesTo (step (atCheck (byteEdges [0xEB])))
      (regs · .idle false 0xEA (some 0x01) (some 0x02) true [(0, 0x10), (1, 0x7E)] .crcMismatch) = true := by decide

/-- V-N1: noise before the first delimiter. -/
theorem test_VN1 :
    goesTo (step { State.reset with input := byteEdges [0x55] })
      (regs · .idle false 0x00 none none false [] .none) = true := by decide

/-- V-N3: noise after a held packet. -/
theorem test_VN3 :
    goesTo (step (atHeld (byteEdges [0x33])))
      (regs · .idle false 0xEA (some 0x01) (some 0x02) true [(0, 0x10), (1, 0x7E)] .none) = true := by decide

/-- V-C2: CLEAR keeps the held packet. -/
theorem test_VC2 :
    goesTo (step (atHeld [clearEdge]))
      (regs · .idle false 0x00 (some 0x01) (some 0x02) true [(0, 0x10), (1, 0x7E)] .none) = true := by decide

/-- V-C3: a byte at an edge with `clear = 1` is dropped. -/
theorem test_VC3 : goesTo (step (atPay0 [.edge 0x37E])) (fun t => t.cursor == .idle && t.crc == 0x00) = true := by
  decide

/-- V-C4: `rst` wins. -/
theorem test_VC4 :
    goesTo (step (atPay1Esc [.edge 0x6FF])) (regs · .idle false 0x00 none none false [] .none) = true := by decide

/-- V-R1: RESET, and a read of `out_id` after it. -/
theorem test_VR1 :
    goesTo (step (atHeld [.edge 0x400]))
      (fun t => regs t .idle false 0x00 none none false [] .none && !(outId t).written) = true := by
  decide

/-- V-Y1: an event lasts one cycle. -/
theorem test_VY1 :
    goesTo (step (atHeld [idleEdge]))
      (regs · .idle false 0xEA (some 0x01) (some 0x02) true [(0, 0x10), (1, 0x7E)] .none) = true := by decide

/-- V-Y2: `in_byte` is ignored without `in_valid`, and `esc` stays. -/
theorem test_VY2 :
    goesTo (step { atLen [.edge 0x0AB] with esc := true })
      (regs · .awaitingLength true 0x07 (some 0x01) none false [] .none) = true := by decide

/-- V-H1: the read port at a written cell. -/
theorem test_VH1_written :
    goesTo (step (atHeld [.readPayload 1])) (fun t => t.sampled == some (.payload ⟨0x7E, true⟩)) = true := by decide

/-- V-H1: the read port at an unwritten cell, reported (log 4), and out of range. -/
theorem test_VH1_faults :
    goesTo (step (atHeld [.readPayload 2])) (reportsUnwritten ·) = true ∧
      faultsWith (step (atHeld [.readPayload 8])) .plAddrOutOfRange = true := by decide

/-- V-H2: status in the cycle after FRAME_OK. -/
theorem test_VH2 :
    goesTo (step (atHeld [.readStatus]))
      (fun t => t.sampled == some (.status ⟨true, 0b01, true, false, 0x000⟩)) = true := by decide

/-- V-H3: status, id and length in mid-frame. -/
theorem test_VH3 :
    goesTo (step (atPay0 [.readStatus]))
      (fun t => t.sampled == some (.status ⟨false, 0b00, false, false, 0x300⟩)) = true := by decide

theorem test_VH3_id : goesTo (step (atPay0 [.readId])) (fun t => t.sampled == some (.id ⟨0x01, true⟩)) = true := by decide

theorem test_VH3_length : goesTo (step (atPay0 [.readLength])) (fun t => t.sampled == some (.length ⟨0x02, true⟩)) = true := by
  decide

/-- R94, R95: `id` and `length` not written since reset, reported (log 4); the run goes on. -/
theorem test_registers_unwritten :
    goesTo (step (atId [.readId])) (reportsUnwritten ·) = true ∧
      goesTo (step (atLen [.readLength])) (reportsUnwritten ·) = true := by decide

/-- Section 2.9 of 95_test_vectors.md. -/
theorem test_crc_steps :
    crcStep referenceConfig 0x00 0x01 = 0x07 ∧ crcStep referenceConfig 0x31 0x7E = 0xEA ∧
      crcStep referenceConfig 0x80 0x00 = 0x89 ∧ crcStep referenceConfig 0xAA 0x55 = 0xF3 := by decide

/-- Section 2.9 of 95_test_vectors.md: `FRAME(20; BB)` is sent with a stuffed checksum. -/
theorem test_frame_stuffed_checksum :
    frame referenceConfig 0x20 [0xBB] = [0x7E, 0x20, 0x01, 0xBB, 0x7D, 0x03] := by decide +kernel

/-- Section 1 of 95_test_vectors.md: `FRAME(01; 10, 7E)` and `HDR(04; 09)`. -/
theorem test_frame_L1_1 :
    frame referenceConfig 0x01 [0x10, 0x7E] = [0x7E, 0x01, 0x02, 0x10, 0x7D, 0x03, 0xEA] ∧
      frameHeader referenceConfig 0x04 0x09 = [0x7E, 0x04, 0x09] := by decide +kernel

/-- A row in a state that does not select it (log 8), and an instance that R5 does not admit (log 12). -/
theorem test_refusals :
    refusesWith (exec (.cId 0x01) (atLen [])) .operationNotSelected = true ∧
      refusesWith (step { State.reset with cfg := { referenceConfig with esc := 0x00 } }) .configNotAdmitted = true := by
  decide

/-- A write in front of a cell keeps the indices rising, and a rewrite keeps one entry. -/
theorem test_buffer_write :
    Memory.write [(1, 0x11)] 0 0x10 = [(0, 0x10), (1, 0x11)] ∧
      Memory.write [(0, 0x10), (1, 0x11)] 1 0x7E = [(0, 0x10), (1, 0x7E)] := by decide

/-! ## Witnesses: states and operands that meet the statements' hypotheses -/

theorem inv_atId (w : List Stimulus) : DecoderInv (atId w) :=
  ⟨rfl, rfl, fun _ _ => rfl, (fun e => nomatch e), rfl, (fun e => nomatch e)⟩

theorem inv_atLen (w : List Stimulus) : DecoderInv (atLen w) :=
  ⟨rfl, rfl, fun _ _ => rfl, (fun e => nomatch e), ⟨rfl,
    (by decide +kernel : 0x07 = crcOver referenceConfig [0x01])⟩, (fun e => nomatch e)⟩

theorem inv_atPay0 (w : List Stimulus) : DecoderInv (atPay0 w) :=
  ⟨rfl, rfl, fun _ _ => rfl, fun _ => (by decide : 2 ≤ 8),
    ⟨rfl, rfl, (by decide : 0 < 2), (fun _ h => absurd h (Nat.not_lt_zero _)),
      (by decide +kernel : 0x1B = crcOver referenceConfig [0x01, 0x02])⟩, (fun e => nomatch e)⟩

theorem inv_atPay1 (w : List Stimulus) : DecoderInv (atPay1 w) := by
  refine ⟨rfl, rfl, fun a h => ?_, fun _ => (by decide : 2 ≤ 8), ⟨rfl, rfl, (by decide : 1 < 2), fun a h => ?_,
    (by decide +kernel : 0x31 = crcOver referenceConfig [0x01, 0x02, 0x10])⟩, (fun e => nomatch e)⟩
  · have h : 8 ≤ a := h
    simp only [atPay1, Memory.read]
    split_ifs
    · omega
    · rfl
  · obtain rfl : a = 0 := by omega
    rfl

theorem inv_atPay1Esc (w : List Stimulus) : DecoderInv (atPay1Esc w) :=
  ⟨(inv_atPay1 w).config, rfl, (inv_atPay1 w).bufferBound, (inv_atPay1 w).lengthBound, (inv_atPay1 w).frame,
    (fun e => nomatch e)⟩

theorem cells_atCheck (a : Nat) : 8 ≤ a → Memory.read [(0, 0x10), (1, 0x7E)] a = none := by
  intro h
  simp only [Memory.read]
  split_ifs
  · omega
  · omega
  · rfl

theorem written_atCheck (a : Nat) (h : a < 2) : (Memory.read [(0, 0x10), (1, 0x7E)] a).isSome = true := by
  obtain rfl | rfl : a = 0 ∨ a = 1 := by omega
  · rfl
  · rfl

theorem inv_atCheck (w : List Stimulus) : DecoderInv (atCheck w) :=
  ⟨rfl, rfl, cells_atCheck, fun _ => (by decide : 2 ≤ 8), ⟨rfl, rfl, written_atCheck,
    (by decide +kernel : 0xEA = crcOver referenceConfig [0x01, 0x02, 0x10, 0x7E])⟩, (fun e => nomatch e)⟩

theorem inv_atHeld (w : List Stimulus) : DecoderInv (atHeld w) :=
  ⟨rfl, rfl, cells_atCheck, fun _ => (by decide : 2 ≤ 8), trivial, fun _ => ⟨.inl rfl, rfl, rfl, written_atCheck⟩⟩

/-- A raw byte completes itself. -/
theorem presents_raw :
    PresentsByte (atPay0 (byteEdges [0x10, 0x11])) (byteEdges [0x11]) 0x10 :=
  ⟨by decide, 0x10, rfl, by decide, by decide⟩

/-- A byte after a prefix completes the recovered value. -/
theorem presents_escaped : PresentsByte (atPay1Esc (byteEdges [0x03])) [] 0x7E :=
  ⟨by decide, 0x03, rfl, by decide, by decide⟩

theorem witness_StepRunsDecodedOperation :
    State.reset.cfg.admitted = true ∧ State.reset.input = [] ∧
      (atPay0 [.readId, idleEdge]).input = .readId :: [idleEdge] := by decide

theorem witness_OnlyAdmittedConfigurationsRun :
    (∀ m, m = 0 ∨ m = 255 → Config.admitted { referenceConfig with maxp := m } = true) ∧
      Config.admitted { referenceConfig with maxp := 256 } = false ∧
      ({ State.reset with cfg := { referenceConfig with maxp := 256 } } : State).cfg.maxp = 256 := by
  refine ⟨fun m h => ?_, by decide, rfl⟩
  rcases h with rfl | rfl <;> decide

/-- Words for lines 1 to 6 of R49, and states for lines 7 to 15. -/
theorem witness_OperationMapSelectsOneRow :
    (0x6FF : InputWord).getLsbD 10 = true ∧
      ((0x37E : InputWord).getLsbD 10 = false ∧ (0x37E : InputWord).getLsbD 9 = true) ∧
      ((0x0AB : InputWord).getLsbD 10 = false ∧ (0x0AB : InputWord).getLsbD 9 = false ∧
        (0x0AB : InputWord).getLsbD 8 = false) ∧
      ((0x7D : Byte) ≠ (atPay1 []).cfg.delim ∧ (atPay1 []).esc = false ∧ 0x7D = (atPay1 []).cfg.esc) ∧
      ((0x7D : Byte) ≠ (atPay1Esc []).cfg.delim ∧ (atPay1Esc []).esc = true) ∧
      ((0x7C : Byte) ≠ (atPay1 []).cfg.delim ∧ (0x7C : Byte) ≠ (atPay1 []).cfg.esc) ∧
      DecoderInv (atPay1 []) ∧ (Instr.cPayloadLast 0x11).enabled (atPay1 []) = true ∧
      (Instr.cPayload 0x11).enabled (atPay1 []) = false := by
  refine ⟨?_, ?_, ?_, ?_, ?_, ?_, inv_atPay1 _, ?_, ?_⟩ <;> decide

theorem witness_RowIsRefusedExactlyWhereNotSelected :
    DecoderInv (atLen []) ∧ (Instr.cLen 0x08).enabled (atLen []) = true ∧
      (Instr.cLen 0x09).enabled (atLen []) = false := ⟨inv_atLen _, by decide, by decide⟩

theorem witness_ResetUnwritesFieldsAndIdles :
    (atHeld [.edge 0x6FF]).cfg.admitted = true ∧ (0x6FF : InputWord).getLsbD 10 = true ∧
      (7 : Byte).toNat < (atHeld []).cfg.maxp := by decide

theorem witness_ClearAbandonsFrameAndKeepsFields :
    (atHeld [.edge 0x37E]).cfg.admitted = true ∧ (0x37E : InputWord).getLsbD 10 = false ∧
      (0x37E : InputWord).getLsbD 9 = true := by decide

theorem witness_IdleCycleOnlyEndsEvent :
    (atHeld [.edge 0x0AB]).cfg.admitted = true ∧ (0x0AB : InputWord).getLsbD 10 = false ∧
      (0x0AB : InputWord).getLsbD 9 = false ∧ (0x0AB : InputWord).getLsbD 8 = false := by decide

theorem witness_DelimiterStartsFrame :
    (atPay1Esc (byteEdges [0x7E])).cfg.admitted = true ∧
      (atPay1Esc (byteEdges [0x7E])).input = .edge (byteWord (atPay1Esc []).cfg.delim) :: [] := by decide

theorem witness_EscapeMarkerSetsFlag :
    (atLen (byteEdges [0x7D])).esc = false ∧ (atLen (byteEdges [0x7D])).cfg.admitted = true ∧
      (atLen (byteEdges [0x7D])).input = .edge (byteWord (atLen []).cfg.esc) :: [] := by decide

theorem witness_UnescapeRunsFieldRowOfRecoveredByte :
    DecoderInv (atPay1Esc (byteEdges [0x7D])) ∧ (atPay1Esc []).esc = true ∧ (0x7D : Byte) ≠ (atPay1Esc []).cfg.delim ∧
      (atPay1Esc (byteEdges [0x7D])).input = .edge (byteWord 0x7D) :: [] :=
  ⟨inv_atPay1Esc _, by decide, by decide, rfl⟩

/-- The last cell but one of a full buffer is the boundary of R61. -/
theorem witness_PayloadByteIsStoredAndCounted :
    ((atPay0 []).cursor = .payload 0 ∧ 0 < (atPay0 []).cfg.maxp ∧ 0 + 1 < (atPay0 []).length.toNat) ∧
      PresentsByte (atPay0 (byteEdges [0x10, 0x11])) (byteEdges [0x11]) 0x10 ∧
      (6 < (atPay0 []).cfg.maxp ∧ 6 + 1 < ({ atPay0 [] with cursor := .payload 6, length := 8 } : State).length.toNat) :=
  ⟨by decide, presents_raw, by decide⟩

/-- The last cell of a full buffer is the boundary of R62. -/
theorem witness_LastPayloadByteLeadsToChecksum :
    ((atPay1 []).cursor = .payload 1 ∧ 1 < (atPay1 []).cfg.maxp ∧ 1 + 1 = (atPay1 []).length.toNat) ∧
      PresentsByte (atPay1Esc (byteEdges [0x03])) [] 0x7E ∧
      (7 < (atPay1 []).cfg.maxp ∧ 7 + 1 = ({ atPay1 [] with cursor := .payload 7, length := 8 } : State).length.toNat) :=
  ⟨by decide, presents_escaped, by decide⟩

theorem witness_IdByteIsStoredAndEndsHeldPacket :
    (atId (byteEdges [0xFF])).cursor = .awaitingId ∧ PresentsByte (atId (byteEdges [0xFF])) [] 0xFF :=
  ⟨rfl, by decide, 0xFF, rfl, by decide, by decide⟩

theorem witness_ValidLengthStartsPayload :
    (atLen (byteEdges [0x08])).cursor = .awaitingLength ∧ 1 ≤ (0x08 : Byte).toNat ∧
      (0x08 : Byte).toNat ≤ (atLen []).cfg.maxp ∧ 1 ≤ (0x01 : Byte).toNat ∧
      PresentsByte (atLen (byteEdges [0x08])) [] 0x08 :=
  ⟨rfl, by decide, by decide, by decide, by decide, 0x08, rfl, by decide, by decide⟩

/-- V-L6: a zero length as the pair ESC ESC. -/
theorem witness_ZeroLengthLeadsToChecksum :
    (atLen []).cursor = .awaitingLength ∧ PresentsByte (atLen (byteEdges [0x00])) [] 0x00 ∧
      PresentsByte { atLen (byteEdges [0x7D]) with esc := true } [] 0x00 :=
  ⟨rfl, ⟨by decide, 0x00, rfl, by decide, by decide⟩, ⟨by decide, 0x7D, rfl, by decide, by decide⟩⟩

theorem witness_OverlongLengthDiscardsFrame :
    (atLen []).cursor = .awaitingLength ∧ (atLen []).cfg.maxp < (0x09 : Byte).toNat ∧
      PresentsByte (atLen (byteEdges [0x09])) [] 0x09 :=
  ⟨rfl, by decide, by decide, 0x09, rfl, by decide, by decide⟩

theorem witness_MatchingChecksumCompletesFrame :
    (atCheck []).cursor = .awaitingChecksum ∧ 0xEA = crcFinal (atCheck []).cfg (atCheck []).crc ∧
      PresentsByte (atCheck (byteEdges [0xEA])) [] 0xEA :=
  ⟨rfl, by decide, by decide, 0xEA, rfl, by decide, by decide⟩

theorem witness_WrongChecksumReportsMismatch :
    (atCheck []).cursor = .awaitingChecksum ∧ 0xEB ≠ crcFinal (atCheck []).cfg (atCheck []).crc ∧
      PresentsByte (atCheck (byteEdges [0xEB])) [] 0xEB :=
  ⟨rfl, by decide, by decide, 0xEB, rfl, by decide, by decide⟩

theorem witness_IdleNoiseChangesNothing :
    (atHeld []).cursor = .idle ∧ PresentsByte (atHeld (byteEdges [0x33])) [] 0x33 :=
  ⟨rfl, by decide, 0x33, rfl, by decide, by decide⟩

theorem witness_ReadIdShowsWrittenId :
    (atLen []).idWritten = true ∧ State.reset.idWritten = false ∧ (atLen [.readId]).cfg.admitted = true ∧
      (atLen [.readId]).input = .readId :: [] := by decide

theorem witness_ReadLengthShowsWrittenLength :
    (atPay0 []).lengthWritten = true ∧ State.reset.lengthWritten = false ∧ DecoderInv (atPay0 []) ∧
      (outLength (atPay0 [])).written = true ∧ (atPay0 [.readLength]).input = .readLength :: [] :=
  ⟨rfl, rfl, inv_atPay0 _, rfl, rfl⟩

/-- The clauses at the addresses where they meet: 1 (written), 2 (unwritten), 7 (the last cell), 8 (out of range). -/
theorem witness_ReadPayloadShowsWrittenCell :
    (atHeld []).cfg.maxp ≤ (8 : Byte).toNat ∧
      ((7 : Byte).toNat < (atHeld []).cfg.maxp ∧ Memory.read (atHeld []).pl (7 : Byte).toNat = none) ∧
      Memory.read (atHeld []).pl (2 : Byte).toNat = none ∧
      ((1 : Byte).toNat < (atHeld []).cfg.maxp ∧ Memory.read (atHeld []).pl (1 : Byte).toNat = some 0x7E) ∧
      (atHeld [.readPayload 1]).input = .readPayload 1 :: [] := by decide

theorem witness_ReadStatusAlwaysAnswers :
    State.reset.cfg.admitted = true ∧ (atHeld [.readStatus]).input = .readStatus :: [] := by decide

theorem witness_ReadsChangeNoRegister :
    (∀ iw, Stimulus.readPayload 1 ≠ .edge iw) ∧ (atHeld [.readPayload 1]).input = .readPayload 1 :: [] ∧
      goesTo (step (atHeld [.readPayload 1])) (fun _ => true) = true :=
  ⟨(fun _ e => nomatch e), rfl, by decide⟩

theorem witness_DecodeOfEncodeIsIdentity :
    (Instr.cLen 0x08).wellFormed (atLen []).cfg = true ∧ (Instr.cLen 0x08).enabled (atLen []) = true ∧
      (Instr.cLen 0x08).isField = true ∧ (atLen []).esc = false ∧
      (Instr.cUnescape 0x7D).wellFormed (atPay1Esc []).cfg = true ∧
      (Instr.cUnescape 0x7D).enabled (atPay1Esc []) = true := by decide

theorem witness_InputWordBytesReadBack : 8 ≤ (0x08 : Byte).toNat ∧ ([0x7E] : List Byte).length < 2 := by decide

theorem witness_StuffingIsUndoneByTheReceiver :
    referenceConfig.admitted = true ∧ 0x7E = referenceConfig.delim ∧ 0x7D = referenceConfig.esc ∧
      (0x7C : Byte) ≠ referenceConfig.delim ∧ (0x7C : Byte) ≠ referenceConfig.esc ∧
      0x00 ∈ stuff referenceConfig 0x7D := by decide

theorem witness_ResetStateHoldsResetValues : (7 : Byte).toNat < referenceConfig.maxp := by decide

theorem witness_InvariantHoldsAtReset :
    referenceConfig.admitted = true ∧ Config.admitted { referenceConfig with maxp := 0 } = true := by decide

theorem witness_StepKeepsInvariant :
    DecoderInv (atPay1 (byteEdges [0x11])) ∧ goesTo (step (atPay1 (byteEdges [0x11]))) (fun _ => true) = true :=
  ⟨inv_atPay1 _, by decide⟩

/-- The last address with a cell, and the first without one. -/
theorem witness_OnlyOutOfRangeReadStopsTheMachine :
    DecoderInv (atHeld [.readPayload 7]) ∧ (7 : Byte).toNat < (atHeld []).cfg.maxp ∧ DecoderInv (atHeld []) ∧
      (atHeld []).input = [] ∧ faultsWith (step (atHeld [.readPayload 8])) .plAddrOutOfRange = true :=
  ⟨inv_atHeld _, by decide, inv_atHeld _, rfl, by decide⟩

theorem witness_StepOnByteIsConsume :
    DecoderInv (atPay1Esc (byteEdges [0x03])) ∧ (atPay1Esc (byteEdges [0x03])).input = .edge (byteWord 0x03) :: [] :=
  ⟨inv_atPay1Esc _, rfl⟩

theorem witness_StreamIsFoldOfConsume :
    DecoderInv (atPay0 [.edge (byteWord 0x10), idleEdge, .edge (byteWord 0x11)]) ∧
      (atPay0 [.edge (byteWord 0x10), idleEdge, .edge (byteWord 0x11)]).input =
        ([some 0x10, none, some 0x11].map fun w =>
          match w with | some x => Stimulus.edge (byteWord x) | none => idleEdge) ++ [] :=
  ⟨inv_atPay0 _, rfl⟩

/-- One state for each kind of column: a delimiter, a prefix, and the lengths 8, 9 and 0. -/
theorem witness_CursorFollowsTransitionTable :
    DecoderInv (atLen (byteEdges [0x08])) ∧ completesByte (atLen []).cfg false 0x08 = true ∧
      ¬ (atLen []).cfg.maxp < (logicalByte (atLen []).cfg false 0x08).toNat ∧
      (atLen []).cfg.maxp < (logicalByte (atLen []).cfg false 0x09).toNat ∧
      logicalByte (atLen []).cfg false 0x00 = 0 ∧
      (0x7D = (atLen []).cfg.esc ∧ (atLen []).esc = false) ∧ 0x7E = (atLen []).cfg.delim :=
  ⟨inv_atLen _, by decide, by decide, by decide, by decide, by decide, by decide⟩

/-- A marker with no prefix pending, and the second byte of ESC ESC. -/
theorem witness_EscapeFlagFollowsUnpairedMarker :
    DecoderInv (atPay1 (byteEdges [0x7D])) ∧ DecoderInv (atPay1Esc (byteEdges [0x7D])) ∧
      (atPay1 (byteEdges [0x7D])).input = .edge (byteWord 0x7D) :: [] := ⟨inv_atPay1 _, inv_atPay1Esc _, rfl⟩

/-- A length that is accepted and one that is not, and a byte for each other clause. -/
theorem witness_AccumulatorStepsOncePerFieldByte :
    DecoderInv (atLen (byteEdges [0x08])) ∧ (atLen (byteEdges [0x08])).input = .edge (byteWord 0x08) :: [] ∧
      completesByte (atLen []).cfg false 0x08 = true ∧ completesByte (atLen []).cfg false 0x09 = true ∧
      0x7E = (atLen []).cfg.delim ∧ (0x7D : Byte) ≠ (atLen []).cfg.delim ∧ 0x7D = (atLen []).cfg.esc :=
  ⟨inv_atLen _, rfl, by decide, by decide, by decide, by decide, by decide⟩

/-- One step for each clause: an id, a length and a payload cell that change. -/
theorem witness_FieldsChangeOnlyAtTheirCursor :
    goesTo (step (atId (byteEdges [0xFF]))) (fun t => t.id != (atId []).id) = true ∧
      goesTo (step (atLen (byteEdges [0x08]))) (fun t => t.length != (atLen []).length) = true ∧
      goesTo (step (atPay0 (byteEdges [0x10]))) (fun t => Memory.read t.pl 0 != Memory.read (atPay0 []).pl 0) = true ∧
      (byteWord 0x10).getLsbD 10 = false := by decide

theorem witness_NoStepChangesConfiguration : goesTo (step (atHeld [.edge 0x400])) (fun _ => true) = true := by decide

/-- One step for each event. -/
theorem witness_EventsComeOnlyFromTheirByte :
    (DecoderInv (atLen (byteEdges [0x09])) ∧ goesTo (step (atLen (byteEdges [0x09]))) (·.eventQ == .lenOverflow) = true) ∧
      (DecoderInv (atCheck (byteEdges [0xEB])) ∧
        goesTo (step (atCheck (byteEdges [0xEB]))) (·.eventQ == .crcMismatch) = true) ∧
      (DecoderInv (atCheck (byteEdges [0xEA])) ∧
        goesTo (step (atCheck (byteEdges [0xEA]))) (·.eventQ == .frameOk) = true) :=
  ⟨⟨inv_atLen _, by decide⟩, ⟨inv_atCheck _, by decide⟩, ⟨inv_atCheck _, by decide⟩⟩

/-- `held` set by a checksum byte, kept by a delimiter, cleared by reset. -/
theorem witness_HeldPacketStaysUntilIdByteOrReset :
    (DecoderInv (atCheck (byteEdges [0xEA])) ∧ (atCheck []).held = false ∧
        goesTo (step (atCheck (byteEdges [0xEA]))) (·.held) = true) ∧
      (DecoderInv (atHeld (byteEdges [0x7E])) ∧ (atHeld []).held = true ∧
        goesTo (step (atHeld (byteEdges [0x7E]))) (·.held) = true) ∧
      (DecoderInv (atHeld [.edge 0x400]) ∧ goesTo (step (atHeld [.edge 0x400])) (!·.held) = true) :=
  ⟨⟨inv_atCheck _, rfl, by decide⟩, ⟨inv_atHeld _, rfl, by decide⟩, ⟨inv_atHeld _, by decide⟩⟩

theorem witness_ReportedFrameIsCompleteAndChecked :
    DecoderInv (atCheck (byteEdges [0xEA])) ∧ (atCheck (byteEdges [0xEA])).input = .edge (byteWord 0xEA) :: [] ∧
      goesTo (step (atCheck (byteEdges [0xEA]))) (·.eventQ == .frameOk) = true :=
  ⟨inv_atCheck _, rfl, by decide⟩

theorem witness_AccumulatorCoversReceivedFrame :
    referenceConfig.admitted = true ∧
      goesTo (Host.Core.run core 3 { State.resetWith referenceConfig with input := byteEdges [0x7E, 0x05, 0x00] })
        (·.cursor == .awaitingChecksum) = true := by decide

theorem witness_DelimiterForgetsThePast :
    DecoderInv (atPay1Esc (byteEdges [0x7E, 0x05] ++ [])) ∧ DecoderInv (atHeld (byteEdges [0x7E, 0x05] ++ [])) ∧
      (atPay1Esc []).cfg = (atHeld []).cfg ∧ (atHeld []).cfg.delim = 0x7E ∧ 1 ≤ 2 ∧
      2 ≤ ([0x05] : List Byte).length + 1 :=
  ⟨inv_atPay1Esc _, inv_atHeld _, rfl, rfl, by decide, by decide⟩

/-- A payload byte 0x41, raw or as `7D 3C`. -/
theorem witness_EscapeFormActsAsTheRawByte :
    DecoderInv (atPay0 []) ∧ (atPay0 []).esc = false ∧ (0x41 : Byte) ≠ (atPay0 []).cfg.delim ∧
      (0x41 : Byte) ≠ (atPay0 []).cfg.esc ∧ (0x41 : Byte) ^^^ (atPay0 []).cfg.esc ≠ (atPay0 []).cfg.delim ∧
      goesTo (step { atPay0 [] with input := .edge (byteWord 0x41) :: [] }) (fun _ => true) = true :=
  ⟨inv_atPay0 _, rfl, by decide, by decide, by decide, by decide⟩

/-- The empty payload and one of `MAXP` bytes. -/
theorem witness_EveryFrameIsDecodedToItsPacket :
    (atPay1Esc []).cfg.admitted = true ∧ ([] : List Byte).length ≤ (atPay1Esc []).cfg.maxp ∧
      (List.replicate 8 (0x7E : Byte)).length ≤ (atPay1Esc []).cfg.maxp ∧
      ∃ s : State, s.cfg = referenceConfig ∧ s.esc = true ∧
        s.input = byteEdges (frameWith s.cfg 0x05 [] 0x41) ++ [] :=
  ⟨by decide, by decide, by decide, atPay1Esc (byteEdges (frameWith referenceConfig 0x05 [] 0x41) ++ []), rfl, rfl, rfl⟩

theorem witness_OverlongHeaderIsRejected :
    (atHeld []).cfg.admitted = true ∧ (atHeld []).cfg.maxp < (0x09 : Byte).toNat ∧
      ∃ s : State, s.cfg = referenceConfig ∧ s.held = true ∧ s.input = byteEdges (frameHeader s.cfg 0x04 0x09) ++ [] :=
  ⟨by decide, by decide, atHeld (byteEdges (frameHeader referenceConfig 0x04 0x09) ++ []), rfl, rfl, rfl⟩

/-- Two states that differ in the value behind the unwritten mark of `length`. -/
theorem witness_UnwrittenValuesReachOnlyReportedReads :
    DecoderInv (atLen [.readLength]) ∧
      SameButUnwritten (atLen [.readLength]) { atLen [.readLength] with length := 0x77 } ∧
      goesTo (step (atLen [.readLength])) (fun _ => true) = true ∧
      DecoderInv (atLen [.readPayload 8]) ∧
      SameButUnwritten (atLen [.readPayload 8]) { atLen [.readPayload 8] with length := 0x77 } ∧
      faultsWith (step (atLen [.readPayload 8])) .plAddrOutOfRange = true :=
  ⟨inv_atLen _, ⟨rfl, fun _ => rfl, (fun e => nomatch e), rfl⟩, by decide,
    inv_atLen _, ⟨rfl, fun _ => rfl, (fun e => nomatch e), rfl⟩, by decide⟩

end Sys2Proof.Tests
end

section
/-! PROOFS. Which configurations run (R5, R3): `admitted` as its four conditions, and what a build and a step answer by
it. -/

namespace Sys2Proof

theorem Config.admitted_iff (c : Config) :
    c.admitted = true ↔ c.delim ≠ c.esc ∧ c.esc ≠ 0 ∧ c.delim ≠ 0 ∧ c.maxp ≤ 255 := by
  simp [Config.admitted, and_assoc]

namespace Machine

theorem instantiate_of_admitted {c : Config} (h : c.admitted = true) : instantiate c = .next (State.resetWith c) :=
  if_pos h

theorem instantiate_of_not_admitted {c : Config} (h : ¬ c.admitted = true) :
    instantiate c = .refused .configNotAdmitted :=
  if_neg h

theorem step_of_not_admitted {s : State} (h : ¬ s.cfg.admitted = true) : step s = .refused .configNotAdmitted :=
  if_neg h

end Machine

open Machine

/-- Settles O2: the obligation's four conditions are `admitted`, the one test that `instantiate` and `step` make before
anything else. -/
theorem onlyAdmittedConfigurationsRun : Obligations.OnlyAdmittedConfigurationsRun := by
  intro c
  rw [← c.admitted_iff]
  refine ⟨instantiate_of_admitted, fun hc => ⟨instantiate_of_not_admitted hc, ?_⟩⟩
  rintro s rfl
  exact step_of_not_admitted hc

end Sys2Proof
end

section
/-! PROOFS. What a step can do, said once. `step` by the host's next action and by the kind of wire byte (R49); the
field rows of R61 to R69 as one relation, `FieldStep`; a whole step as one relation, `Transition`. -/

namespace Sys2Proof.Machine

/-! ## The step by the host's next action -/

theorem admitted_of_step {s t : State} (h : step s = .next t) : s.cfg.admitted = true := by
  by_contra ha
  rw [step_of_not_admitted ha] at h
  cases h

theorem step_cons {s : State} {d : Stimulus} {rest : List Stimulus} (ha : s.cfg.admitted = true)
    (hin : s.input = d :: rest) : step s = exec (decode s d) { s with input := rest } := by
  rw [step, if_pos ha, fetch_cons hin, decode_input]

theorem step_nil {s : State} (ha : s.cfg.admitted = true) (hin : s.input = []) : step s = execIdleCycle s := by
  rw [step, if_pos ha, fetch_nil hin]
  rfl

theorem step_byteWord {s : State} {x : Byte} {rest : List Stimulus} (ha : s.cfg.admitted = true)
    (hin : s.input = .edge (byteWord x) :: rest) : step s = exec (selectByte s x) { s with input := rest } := by
  rw [step_cons ha hin, decode_edge, selectEdge_byteWord]

/-! ## The kinds of wire byte -/

theorem delim_ne_esc_of_admitted {c : Config} (h : c.admitted = true) : c.delim ≠ c.esc :=
  (c.admitted_iff.mp h).1

theorem completesByte_iff {c : Config} {esc : Bool} {x : Byte} :
    completesByte c esc x = true ↔ x ≠ c.delim ∧ (esc = true ∨ x ≠ c.esc) := by
  simp [completesByte]

/-- R49 lines 4 to 6: a wire byte is a delimiter, an escape marker with none pending, or completes a logical byte. -/
theorem byte_cases (c : Config) (esc : Bool) (x : Byte) :
    x = c.delim ∨ (esc = false ∧ x = c.esc ∧ x ≠ c.delim) ∨ completesByte c esc x = true := by
  rw [completesByte_iff]
  cases esc <;> tauto

/-- A byte that completes a logical byte, raw or after a marker, runs the field dispatch on it with `esc` cleared. -/
theorem exec_selectByte_of_completes {s : State} {x : Byte} (h : completesByte s.cfg s.esc x = true) :
    exec (selectByte s x) s = dispatchField (logicalByte s.cfg s.esc x) { s with esc := false } := by
  obtain ⟨hd, he⟩ := completesByte_iff.mp h
  cases hs : s.esc with
  | true =>
    have hsel : selectByte s x = .cUnescape x := by simp [selectByte, hd, hs]
    have hrun : execCUnescape x s = dispatchField (logicalByte s.cfg s.esc x) (setEsc false s) := if_pos ⟨hs, hd⟩
    rw [hsel, ← hs]
    exact hrun
  | false =>
    have hx : x ≠ s.cfg.esc := by simpa [hs] using he
    have hstay : { s with esc := false } = s := by rw [← hs]
    rw [hstay, selectByte_raw hd hs hx, dispatchField_eq]
    rfl

theorem step_delim {s : State} {rest : List Stimulus} (ha : s.cfg.admitted = true)
    (hin : s.input = .edge (byteWord s.cfg.delim) :: rest) : step s = .next (startFrame { s with input := rest }) := by
  rw [step_byteWord ha hin, selectByte, if_pos rfl]
  rfl

theorem step_marker {s : State} {rest : List Stimulus} (ha : s.cfg.admitted = true)
    (hin : s.input = .edge (byteWord s.cfg.esc) :: rest) (he : s.esc = false) :
    step s = .next { s with input := rest, esc := true, eventQ := .none } := by
  have hsel : selectByte s s.cfg.esc = .cEscSet := by simp [selectByte, (delim_ne_esc_of_admitted ha).symm, he]
  rw [step_byteWord ha hin, hsel]
  exact execCEscSet_next.mpr ⟨he, rfl⟩

theorem step_completing {s : State} {x : Byte} {rest : List Stimulus} (ha : s.cfg.admitted = true)
    (hin : s.input = .edge (byteWord x) :: rest) (hx : completesByte s.cfg s.esc x = true) :
    step s = dispatchField (logicalByte s.cfg s.esc x) { s with input := rest, esc := false } := by
  rw [step_byteWord ha hin]
  exact exec_selectByte_of_completes (s := { s with input := rest }) hx

/-! ## The field rows -/

/-- What the field row of logical byte `b` makes of `s`, one constructor per row of R61 to R69. -/
inductive FieldStep (s : State) (b : Byte) : State → Prop
  | payload {i : Nat} (hc : s.cursor = .payload i) (hi : i < s.cfg.maxp) (hl : i + 1 < s.length.toNat) :
      FieldStep s b { s with
        pl := Memory.write s.pl i b, crc := crcStep s.cfg s.crc b, cursor := .payload (i + 1), eventQ := .none }
  | payloadLast {i : Nat} (hc : s.cursor = .payload i) (hi : i < s.cfg.maxp) (hl : i + 1 = s.length.toNat) :
      FieldStep s b { s with
        pl := Memory.write s.pl i b, crc := crcStep s.cfg s.crc b, cursor := .awaitingChecksum, eventQ := .none }
  | id (hc : s.cursor = .awaitingId) :
      FieldStep s b { s with
        id := b, idWritten := true, held := false, crc := crcStep s.cfg s.crc b, cursor := .awaitingLength,
        eventQ := .none }
  | len (hc : s.cursor = .awaitingLength) (hb : b ≠ 0) (hm : b.toNat ≤ s.cfg.maxp) :
      FieldStep s b { s with
        length := b, lengthWritten := true, crc := crcStep s.cfg s.crc b, cursor := .payload 0, eventQ := .none }
  | lenZero (hc : s.cursor = .awaitingLength) (hb : b = 0) :
      FieldStep s b { s with
        length := b, lengthWritten := true, crc := crcStep s.cfg s.crc b, cursor := .awaitingChecksum,
        eventQ := .none }
  | lenOverflow (hc : s.cursor = .awaitingLength) (hm : s.cfg.maxp < b.toNat) :
      FieldStep s b { s with cursor := .idle, eventQ := .lenOverflow }
  | checksumOk (hc : s.cursor = .awaitingChecksum) (hb : b = crcFinal s.cfg s.crc) :
      FieldStep s b { s with held := true, cursor := .idle, eventQ := .frameOk }
  | checksumBad (hc : s.cursor = .awaitingChecksum) (hb : b ≠ crcFinal s.cfg s.crc) :
      FieldStep s b { s with held := true, cursor := .idle, eventQ := .crcMismatch }
  | idleNoise (hc : s.cursor = .idle) : FieldStep s b { s with eventQ := .none }

theorem fieldStep_of_dispatchField {s t : State} {b : Byte} (h : dispatchField b s = .next t) : FieldStep s b t := by
  unfold dispatchField at h
  split at h
  next i hc =>
    split at h
    · obtain ⟨j, hj, hi, hl, rfl⟩ := execCPayloadLast_next.mp h
      exact .payloadLast hj hi hl
    · obtain ⟨j, hj, hi, hl, rfl⟩ := execCPayload_next.mp h
      exact .payload hj hi hl
  next =>
    obtain ⟨hc, rfl⟩ := execCId_next.mp h
    exact .id hc
  next =>
    split at h
    · obtain ⟨⟨hc, hm⟩, rfl⟩ := execCLenOverflow_next.mp h
      exact .lenOverflow hc hm
    · split at h
      next hb =>
        obtain ⟨hc, rfl⟩ := execCLenZero_next.mp h
        subst hb
        exact .lenZero hc rfl
      next =>
        obtain ⟨⟨hc, hb, hm⟩, rfl⟩ := execCLen_next.mp h
        exact .len hc hb hm
  next =>
    split at h
    · obtain ⟨⟨hc, hb⟩, rfl⟩ := execCChecksumOk_next.mp h
      exact .checksumOk hc hb
    · obtain ⟨⟨hc, hb⟩, rfl⟩ := execCChecksumBad_next.mp h
      exact .checksumBad hc hb
  next =>
    obtain ⟨hc, rfl⟩ := execCIdleNoise_next.mp h
    exact .idleNoise hc

theorem FieldStep.dispatchField_eq {s t : State} {b : Byte} (h : FieldStep s b t) : dispatchField b s = .next t := by
  unfold dispatchField
  cases h with
  | payload hc hi hl => simpa [hc, hl.ne] using execCPayload_next.mpr ⟨_, hc, hi, hl, rfl⟩
  | payloadLast hc hi hl => simpa [hc, hl] using execCPayloadLast_next.mpr ⟨_, hc, hi, hl, rfl⟩
  | id hc => simpa [hc] using execCId_next.mpr ⟨hc, rfl⟩
  | len hc hb hm =>
    simp only [hc, if_neg hm.not_gt, if_neg hb]
    exact execCLen_next.mpr ⟨⟨hc, hb, hm⟩, rfl⟩
  | lenZero hc hb =>
    subst hb
    simpa [hc] using execCLenZero_next.mpr ⟨hc, rfl⟩
  | lenOverflow hc hm => simpa [hc, hm] using execCLenOverflow_next.mpr ⟨⟨hc, hm⟩, rfl⟩
  | checksumOk hc hb => simpa [hc, hb] using execCChecksumOk_next.mpr ⟨⟨hc, hb⟩, rfl⟩
  | checksumBad hc hb => simpa [hc, hb] using execCChecksumBad_next.mpr ⟨⟨hc, hb⟩, rfl⟩
  | idleNoise hc => simpa [hc] using execCIdleNoise_next.mpr ⟨hc, rfl⟩

/-- The field dispatch answers a next state exactly where a field row does, and then that row's. -/
theorem dispatchField_next {s t : State} {b : Byte} : dispatchField b s = .next t ↔ FieldStep s b t :=
  ⟨fieldStep_of_dispatchField, FieldStep.dispatchField_eq⟩

/-! No field row touches the configuration, `esc`, or the host's queue. -/

theorem FieldStep.cfg_eq {s t : State} {b : Byte} (h : FieldStep s b t) : t.cfg = s.cfg := by cases h <;> rfl

theorem FieldStep.esc_eq {s t : State} {b : Byte} (h : FieldStep s b t) : t.esc = s.esc := by cases h <;> rfl

theorem FieldStep.input_eq {s t : State} {b : Byte} (h : FieldStep s b t) : t.input = s.input := by cases h <;> rfl

/-! ## The whole step -/

/-- What a step of an admitted configuration makes of `s`: the edges of R90 in the order of R49, and the host's reads,
of which it says only that nothing but the queue and the sample changes (R34). -/
inductive Transition (s : State) : State → Prop
  | reset {iw : InputWord} {rest : List Stimulus} (hin : s.input = .edge iw :: rest) (hr : iwRst iw = true) :
      Transition s { State.resetWith s.cfg with input := rest, sampled := s.sampled }
  | clear {iw : InputWord} {rest : List Stimulus} (hin : s.input = .edge iw :: rest) (hr : iwRst iw = false)
      (hc : iwClear iw = true) :
      Transition s { s with
        input := rest, cursor := .idle, esc := false, crc := s.cfg.crcInit, eventQ := .none }
  | idleCycle {iw : InputWord} {rest : List Stimulus} (hin : s.input = .edge iw :: rest) (hr : iwRst iw = false)
      (hc : iwClear iw = false) (hv : iwValid iw = false) :
      Transition s { s with input := rest, eventQ := .none }
  | emptyQueue (hin : s.input = []) : Transition s { s with eventQ := .none }
  | delimiter {rest : List Stimulus} (hin : s.input = .edge (byteWord s.cfg.delim) :: rest) :
      Transition s { s with
        input := rest, cursor := .awaitingId, esc := false, crc := s.cfg.crcInit, eventQ := .none }
  | marker {rest : List Stimulus} (hin : s.input = .edge (byteWord s.cfg.esc) :: rest) (he : s.esc = false) :
      Transition s { s with input := rest, esc := true, eventQ := .none }
  | field {rest : List Stimulus} {b : Byte} {t : State} (hb : PresentsByte s rest b)
      (hf : FieldStep { s with input := rest, esc := false } b t) : Transition s t
  | read {d : Stimulus} {rest : List Stimulus} {x : Sample} (hin : s.input = d :: rest)
      (hd : ∀ iw, d ≠ .edge iw) : Transition s { s with input := rest, sampled := some x }

theorem transition_of_step_byte {s t : State} {x : Byte} {rest : List Stimulus} (ha : s.cfg.admitted = true)
    (hin : s.input = .edge (byteWord x) :: rest) (h : step s = .next t) : Transition s t := by
  rcases byte_cases s.cfg s.esc x with rfl | ⟨he, rfl, -⟩ | hx
  · rw [step_delim ha hin] at h
    cases h
    exact .delimiter hin
  · rw [step_marker ha hin he] at h
    cases h
    exact .marker hin he
  · rw [step_completing ha hin hx] at h
    exact .field ⟨ha, x, hin, hx, rfl⟩ (dispatchField_next.mp h)

theorem transition_of_step_edge {s t : State} {iw : InputWord} {rest : List Stimulus} (ha : s.cfg.admitted = true)
    (hin : s.input = .edge iw :: rest) (h : step s = .next t) : Transition s t := by
  have hstep := step_cons ha hin
  rw [decode_edge, selectEdge, h] at hstep
  split_ifs at hstep with hr hc hv
  · cases hstep
    exact .reset hin hr
  · cases hstep
    exact .clear hin (by simpa using hr) hc
  · rw [← byteWord_iwByte (by simpa using hr) (by simpa using hc) hv] at hin
    exact transition_of_step_byte ha hin h
  · cases hstep
    exact .idleCycle hin (by simpa using hr) (by simpa using hc) (by simpa using hv)

/-- R90, R49, R34: everything a step can answer with. -/
theorem transition_of_step {s t : State} (h : step s = .next t) : Transition s t := by
  have ha := admitted_of_step h
  cases hin : s.input with
  | nil =>
    rw [step_nil ha hin] at h
    cases h
    exact .emptyQueue hin
  | cons d rest =>
    have hstep := step_cons ha hin
    rw [h] at hstep
    cases d with
    | edge iw => exact transition_of_step_edge ha hin h
    | readId =>
      cases hstep
      exact .read hin nofun
    | readLength =>
      cases hstep
      exact .read hin nofun
    | readPayload a =>
      obtain ⟨-, rfl⟩ := execReadPayload_next.mp hstep.symm
      exact .read hin nofun
    | readStatus =>
      cases hstep
      exact .read hin nofun

end Sys2Proof.Machine
end

section
/-! PROOFS. The invariant `DecoderInv` (R19 (a) to (d), R82): at reset, and after every step. -/

namespace Sys2Proof.Machine

/-! ## What the parts of the invariant say -/

theorem frameInv_idle {s : State} (hc : s.cursor = .idle) : FrameInv s := by
  simp only [FrameInv, hc]

theorem frameInv_awaitingId {s : State} (hc : s.cursor = .awaitingId) : FrameInv s ↔ s.crc = s.cfg.crcInit := by
  simp only [FrameInv, hc]

theorem frameInv_awaitingLength {s : State} (hc : s.cursor = .awaitingLength) :
    FrameInv s ↔ s.idWritten = true ∧ s.crc = crcOver s.cfg [s.id] := by
  simp only [FrameInv, hc]

theorem frameInv_payload {s : State} {i : Nat} (hc : s.cursor = .payload i) :
    FrameInv s ↔
      s.idWritten = true ∧ s.lengthWritten = true ∧ i < s.length.toNat ∧ cellsWritten s i ∧
        s.crc = crcOver s.cfg (receivedBytes s i) := by
  simp only [FrameInv, hc]

theorem frameInv_awaitingChecksum {s : State} (hc : s.cursor = .awaitingChecksum) :
    FrameInv s ↔
      s.idWritten = true ∧ s.lengthWritten = true ∧ cellsWritten s s.length.toNat ∧
        s.crc = crcOver s.cfg (receivedBytes s s.length.toNat) := by
  simp only [FrameInv, hc]

theorem heldInv_of_not_held {s : State} (h : s.held = false) : HeldInv s := by simp [HeldInv, h]

/-- A packet is held only between frames (R19 (d)). -/
theorem DecoderInv.not_held {s : State} (h : DecoderInv s) (h1 : s.cursor ≠ .idle) (h2 : s.cursor ≠ .awaitingId) :
    s.held = false := by
  by_contra hh
  obtain ⟨hc, -⟩ := h.heldFrame (by simpa using hh)
  exact hc.elim h1 h2

theorem cellsWritten_zero (s : State) : cellsWritten s 0 := fun _ h => absurd h (Nat.not_lt_zero _)

/-- Storing the next payload byte extends the cells written by one. -/
theorem cellsWritten_writePayload {s : State} {i : Nat} (h : cellsWritten s i) (b : Byte) :
    cellsWritten (writePayload i b s) (i + 1) := by
  intro a ha
  rw [writePayload_pl, Memory.read_write]
  split
  · rfl
  · exact h a (by omega)

/-- Storing the next payload byte extends the bytes received by it. -/
theorem receivedBytes_writePayload (s : State) (i : Nat) (b : Byte) :
    receivedBytes (writePayload i b s) (i + 1) = receivedBytes s i ++ [b] := by
  simp [receivedBytes, Memory.take_write]

/-! ## Reset -/

/-- R19 after reset: nothing is written, nothing is held, and the cursor says nothing of a frame. -/
theorem decoderInv_resetWith {c : Config} (hc : c.admitted = true) (w : List Stimulus) (x : Option Sample) :
    DecoderInv { State.resetWith c with input := w, sampled := x } where
  config := hc
  bufferForm := rfl
  bufferBound _ _ := rfl
  lengthBound h := nomatch h
  frame := frameInv_idle rfl
  heldFrame := heldInv_of_not_held rfl

/-! ## One step -/

/-- The invariant does not read `esc`, the event, or the host's side of the ports. -/
theorem DecoderInv.congr {s : State} (h : DecoderInv s) (e : Bool) (v : Event) (w : List Stimulus)
    (x : Option Sample) : DecoderInv { s with esc := e, eventQ := v, input := w, sampled := x } :=
  ⟨h.config, h.bufferForm, h.bufferBound, h.lengthBound, h.frame, h.heldFrame⟩

/-- Going back to IDLE asks nothing of the frame, whatever the accumulator then holds. -/
theorem DecoderInv.toIdle {s : State} (h : DecoderInv s) (acc : Byte) :
    DecoderInv { s with cursor := .idle, crc := acc } where
  config := h.config
  bufferForm := h.bufferForm
  bufferBound := h.bufferBound
  lengthBound := h.lengthBound
  frame := frameInv_idle rfl
  heldFrame hh := ⟨.inl rfl, (h.heldFrame hh).2⟩

/-- A delimiter restarts the checksum and leaves a held packet whole. -/
theorem DecoderInv.toAwaitingId {s : State} (h : DecoderInv s) :
    DecoderInv { s with cursor := .awaitingId, crc := s.cfg.crcInit } where
  config := h.config
  bufferForm := h.bufferForm
  bufferBound := h.bufferBound
  lengthBound := h.lengthBound
  frame := (frameInv_awaitingId rfl).mpr rfl
  heldFrame hh := ⟨.inr rfl, (h.heldFrame hh).2⟩

/-- R61, R62, R82: with the byte of `PAYLOAD(i)` stored and accumulated, `i + 1` payload bytes are written and covered
by the checksum. -/
theorem received_of_payload {s : State} {i : Nat} (h : FrameInv s) (hc : s.cursor = .payload i) (b : Byte) :
    s.idWritten = true ∧ s.lengthWritten = true ∧ cellsWritten (writePayload i b s) (i + 1) ∧
      crcStep s.cfg s.crc b = crcOver s.cfg (receivedBytes (writePayload i b s) (i + 1)) := by
  obtain ⟨hid, hlen, -, hcells, hcrc⟩ := (frameInv_payload hc).mp h
  refine ⟨hid, hlen, cellsWritten_writePayload hcells b, ?_⟩
  rw [receivedBytes_writePayload, crcOver_append, ← hcrc]

/-- R64, R65, R82: with the length byte accumulated, the checksum covers the header. -/
theorem crcStep_of_awaitingLength {s : State} (h : FrameInv s) (hc : s.cursor = .awaitingLength) (b : Byte) :
    crcStep s.cfg s.crc b = crcOver s.cfg [s.id, b] := by
  obtain ⟨-, hcrc⟩ := (frameInv_awaitingLength hc).mp h
  rw [hcrc]
  rfl

/-- A payload byte stored inside the buffer, given what the next cursor says. -/
theorem DecoderInv.store {s : State} (h : DecoderInv s) {i : Nat} (hc : s.cursor = .payload i)
    (hi : i < s.cfg.maxp) {b : Byte} {c : Cursor}
    (hf : FrameInv (setCursor c (accumulate b (writePayload i b s)))) :
    DecoderInv (setCursor c (accumulate b (writePayload i b s))) where
  config := h.config
  bufferForm := Memory.wf_write h.bufferForm i b
  bufferBound a (ha : s.cfg.maxp ≤ a) := (Memory.read_write_other s.pl b (by omega)).trans (h.bufferBound a ha)
  lengthBound := h.lengthBound
  frame := hf
  heldFrame := heldInv_of_not_held (h.not_held (by simp [hc]) (by simp [hc]))

/-- A length byte accepted, given what the next cursor says. -/
theorem DecoderInv.storeLength {s : State} (h : DecoderInv s) (hc : s.cursor = .awaitingLength) {b : Byte}
    (hm : b.toNat ≤ s.cfg.maxp) {c : Cursor} (hf : FrameInv (setCursor c (accumulate b (writeLength b s)))) :
    DecoderInv (setCursor c (accumulate b (writeLength b s))) where
  config := h.config
  bufferForm := h.bufferForm
  bufferBound := h.bufferBound
  lengthBound _ := hm
  frame := hf
  heldFrame := heldInv_of_not_held (h.not_held (by simp [hc]) (by simp [hc]))

/-- The checksum byte holds the packet that the cursor says is complete. -/
theorem DecoderInv.hold {s : State} (h : DecoderInv s) (hc : s.cursor = .awaitingChecksum) :
    DecoderInv { s with held := true, cursor := .idle } where
  config := h.config
  bufferForm := h.bufferForm
  bufferBound := h.bufferBound
  lengthBound := h.lengthBound
  frame := frameInv_idle rfl
  heldFrame _ := by
    obtain ⟨hid, hlen, hcells, -⟩ := (frameInv_awaitingChecksum hc).mp h.frame
    exact ⟨.inl rfl, hid, hlen, hcells⟩

theorem DecoderInv.fieldStep {s t : State} {b : Byte} (h : DecoderInv s) (hf : FieldStep s b t) : DecoderInv t := by
  cases hf with
  | @payload i hc hi hl =>
    obtain ⟨hid, hlen, hcells, hcrc⟩ := received_of_payload h.frame hc b
    have hframe : FrameInv (setCursor (.payload (i + 1)) (accumulate b (writePayload i b s))) :=
      (frameInv_payload rfl).mpr ⟨hid, hlen, hl, hcells, hcrc⟩
    exact (h.store hc hi hframe).congr _ _ _ _
  | @payloadLast i hc hi hl =>
    obtain ⟨hid, hlen, hcells, hcrc⟩ := received_of_payload h.frame hc b
    rw [hl] at hcells hcrc
    have hframe : FrameInv (setCursor .awaitingChecksum (accumulate b (writePayload i b s))) :=
      (frameInv_awaitingChecksum rfl).mpr ⟨hid, hlen, hcells, hcrc⟩
    exact (h.store hc hi hframe).congr _ _ _ _
  | id hc =>
    have hcrc := (frameInv_awaitingId hc).mp h.frame
    exact ⟨h.config, h.bufferForm, h.bufferBound, h.lengthBound,
      (frameInv_awaitingLength rfl).mpr ⟨rfl, by rw [hcrc]; rfl⟩, heldInv_of_not_held rfl⟩
  | len hc hb hm =>
    obtain ⟨hid, -⟩ := (frameInv_awaitingLength hc).mp h.frame
    have hpos : 0 < b.toNat := Nat.pos_of_ne_zero fun h0 => hb (BitVec.eq_of_toNat_eq h0)
    have hframe : FrameInv (setCursor (.payload 0) (accumulate b (writeLength b s))) :=
      (frameInv_payload rfl).mpr ⟨hid, rfl, hpos, cellsWritten_zero _, crcStep_of_awaitingLength h.frame hc b⟩
    exact (h.storeLength hc hm hframe).congr _ _ _ _
  | lenZero hc hb =>
    obtain ⟨hid, -⟩ := (frameInv_awaitingLength hc).mp h.frame
    subst hb
    have hframe : FrameInv (setCursor .awaitingChecksum (accumulate 0 (writeLength 0 s))) :=
      (frameInv_awaitingChecksum rfl).mpr ⟨hid, rfl, cellsWritten_zero _, crcStep_of_awaitingLength h.frame hc 0⟩
    exact (h.storeLength hc (Nat.zero_le _) hframe).congr _ _ _ _
  | lenOverflow => exact (h.toIdle s.crc).congr _ _ _ _
  | checksumOk hc | checksumBad hc => exact (h.hold hc).congr _ _ _ _
  | idleNoise => exact h.congr _ _ _ _

theorem DecoderInv.transition {s t : State} (h : DecoderInv s) (ht : Transition s t) : DecoderInv t := by
  cases ht with
  | reset => exact decoderInv_resetWith h.config _ _
  | clear => exact (h.toIdle s.cfg.crcInit).congr _ _ _ _
  | delimiter => exact h.toAwaitingId.congr _ _ _ _
  | field _ hf => exact (h.congr false s.eventQ _ s.sampled).fieldStep hf
  | idleCycle | emptyQueue | marker | read => exact h.congr _ _ _ _

/-- A byte inside the invariant always has a field row: R10's and R19 (b)'s bounds are those of R61 and R62. -/
theorem DecoderInv.exists_fieldStep {s : State} (h : DecoderInv s) (b : Byte) : ∃ t, FieldStep s b t := by
  cases hc : s.cursor with
  | idle => exact ⟨_, .idleNoise hc⟩
  | awaitingId => exact ⟨_, .id hc⟩
  | awaitingLength =>
    by_cases hm : s.cfg.maxp < b.toNat
    · exact ⟨_, .lenOverflow hc hm⟩
    · by_cases hb : b = 0
      · exact ⟨_, .lenZero hc hb⟩
      · exact ⟨_, .len hc hb (by omega)⟩
  | payload i =>
    obtain ⟨-, hlen, hi, -⟩ := (frameInv_payload hc).mp h.frame
    have hmax := h.lengthBound hlen
    by_cases hl : i + 1 = s.length.toNat
    · exact ⟨_, .payloadLast hc (by omega) hl⟩
    · exact ⟨_, .payload hc (by omega) (by omega)⟩
  | awaitingChecksum =>
    by_cases hb : b = crcFinal s.cfg s.crc
    · exact ⟨_, .checksumOk hc hb⟩
    · exact ⟨_, .checksumBad hc hb⟩

end Sys2Proof.Machine

namespace Sys2Proof

open Machine

/-- Settles O35: the invariant is kept by each case of `Transition`, and a field byte by each row of `FieldStep`. -/
theorem stepKeepsInvariant : Obligations.StepKeepsInvariant := fun _ _ h hstep =>
  h.transition (transition_of_step hstep)

/-- Settles O34: the reset state holds nothing that the invariant speaks of, and the reference configuration is
admitted. -/
theorem invariantHoldsAtReset : Obligations.InvariantHoldsAtReset :=
  ⟨decoderInv_resetWith (c := referenceConfig) (by decide) [] none, fun _ w hc => decoderInv_resetWith hc w none⟩

end Sys2Proof
end

section
/-! PROOFS. The registers one by one (R10 to R18, R20): their values after reset, and the steps that change them. -/

namespace Sys2Proof.Machine

/-! ## What a field row changes (R12 to R14, R17) -/

theorem FieldStep.id_changed {s t : State} {b : Byte} (h : FieldStep s b t)
    (hne : t.id ≠ s.id ∨ t.idWritten ≠ s.idWritten) : s.cursor = .awaitingId ∧ t.id = b := by
  cases h with
  | id hc => exact ⟨hc, rfl⟩
  | _ => simp at hne

theorem FieldStep.length_changed {s t : State} {b : Byte} (h : FieldStep s b t)
    (hne : t.length ≠ s.length ∨ t.lengthWritten ≠ s.lengthWritten) :
    s.cursor = .awaitingLength ∧ b.toNat ≤ s.cfg.maxp ∧ t.length = b := by
  cases h with
  | len hc _ hm => exact ⟨hc, hm, rfl⟩
  | lenZero hc hb => exact ⟨hc, by simp [hb], rfl⟩
  | _ => simp at hne

/-- A write changes no cell but its own. -/
theorem Memory.read_write_changed {m : Memory} {i a : Nat} {v : Byte}
    (hne : Memory.read (Memory.write m i v) a ≠ Memory.read m a) : i = a := by
  by_contra h
  exact hne (Memory.read_write_other m v (Ne.symm h))

theorem FieldStep.cell_changed {s t : State} {b : Byte} (h : FieldStep s b t) {a : Nat}
    (hne : Memory.read t.pl a ≠ Memory.read s.pl a) : s.cursor = .payload a ∧ Memory.read t.pl a = some b := by
  cases h with
  | payload hc | payloadLast hc =>
    obtain rfl := Memory.read_write_changed hne
    exact ⟨hc, Memory.read_write_same ..⟩
  | _ => simp at hne

theorem FieldStep.held_set {s t : State} {b : Byte} (h : FieldStep s b t) (hs : s.held = false)
    (ht : t.held = true) : s.cursor = .awaitingChecksum ∧ (t.eventQ = .frameOk ∨ t.eventQ = .crcMismatch) := by
  cases h with
  | checksumOk hc => exact ⟨hc, .inl rfl⟩
  | checksumBad hc => exact ⟨hc, .inr rfl⟩
  | _ => simp [hs] at ht

theorem FieldStep.held_cleared {s t : State} {b : Byte} (h : FieldStep s b t) (hs : s.held = true)
    (ht : t.held = false) : s.cursor = .awaitingId := by
  cases h with
  | id hc => exact hc
  | _ => simp [hs] at ht

/-- While a packet is held (so the cursor is IDLE or AWAITING_ID), a field row keeps it or ends it. -/
theorem FieldStep.heldPacket_eq {s t : State} {b : Byte} (h : FieldStep s b t)
    (hc : s.cursor = .idle ∨ s.cursor = .awaitingId) (ht : t.held = true) : heldPacket t = heldPacket s := by
  cases h with
  | idleNoise => rfl
  | id => cases ht
  | payload hc' | payloadLast hc' | len hc' | lenZero hc' | lenOverflow hc' | checksumOk hc' | checksumBad hc' =>
    simp [hc'] at hc

/-! ## What any other step changes -/

/-- `t` has the fields of `s`: `id`, `length`, their marks, the payload buffer and `held`. -/
structure SameFields (s t : State) : Prop where
  id : t.id = s.id
  idWritten : t.idWritten = s.idWritten
  length : t.length = s.length
  lengthWritten : t.lengthWritten = s.lengthWritten
  pl : t.pl = s.pl
  held : t.held = s.held

theorem SameFields.heldPacket_eq {s t : State} (h : SameFields s t) : heldPacket t = heldPacket s := by
  simp only [heldPacket, h.id, h.length, h.pl, h.held]

/-- The fields change only at a reset and by the field row of a byte that the edge completes. -/
theorem fields_of_step {s t : State} (h : step s = .next t) :
    ((∃ iw rest, s.input = .edge iw :: rest ∧ iw.getLsbD 10 = true) ∧ t.held = false) ∨
    (∃ b, PresentsByte s t.input b ∧ FieldStep { s with input := t.input, esc := false } b t) ∨
    SameFields s t := by
  cases transition_of_step h with
  | reset hin hr => exact .inl ⟨⟨_, _, hin, hr⟩, rfl⟩
  | @field _ b _ hb hf =>
    have hrest := hf.input_eq
    subst hrest
    exact .inr (.inl ⟨b, hb, hf⟩)
  | clear | idleCycle | emptyQueue | delimiter | marker | read => exact .inr (.inr ⟨rfl, rfl, rfl, rfl, rfl, rfl⟩)

end Sys2Proof.Machine

namespace Sys2Proof

open Machine

/-- Settles O40: a delimiter and a completing byte leave `esc` at 0, a marker with none pending sets it. -/
theorem escapeFlagFollowsUnpairedMarker : Obligations.EscapeFlagFollowsUnpairedMarker := by
  intro s x rest h hin
  rcases byte_cases s.cfg s.esc x with rfl | ⟨he, rfl, -⟩ | hx
  · exact ⟨_, step_delim h.config hin, by simp [startFrame_eq, delim_ne_esc_of_admitted h.config]⟩
  · exact ⟨_, step_marker h.config hin he, by simp [he]⟩
  · obtain ⟨t, ht⟩ := (h.congr false s.eventQ rest s.sampled).exists_fieldStep (logicalByte s.cfg s.esc x)
    obtain ⟨-, hx'⟩ := completesByte_iff.mp hx
    refine ⟨t, (step_completing h.config hin hx).trans ht.dispatchField_eq, ?_⟩
    rw [ht.esc_eq]
    exact ⟨nofun, fun ⟨he, hesc⟩ => absurd hx' (by simp [he, hesc])⟩

/-- Settles O42: away from a reset only a field row changes the fields, each at its own cursor. -/
theorem fieldsChangeOnlyAtTheirCursor : Obligations.FieldsChangeOnlyAtTheirCursor := by
  intro s t h hrst
  rcases fields_of_step h with ⟨⟨iw, rest, hin, hr⟩, -⟩ | ⟨b, hb, hf⟩ | hsame
  · exact absurd (hr.symm.trans (hrst iw rest hin)) (by decide)
  · refine ⟨fun hne => ?_, fun hne => ?_, fun a hne => ?_⟩
    · obtain ⟨hc, hid⟩ := hf.id_changed hne
      exact ⟨hc, b, hb, hid⟩
    · obtain ⟨hc, hm, hlen⟩ := hf.length_changed hne
      exact ⟨hc, b, hb, hm, hlen⟩
    · obtain ⟨hc, hcell⟩ := hf.cell_changed hne
      exact ⟨hc, b, hb, hcell⟩
  · simp [hsame.id, hsame.idWritten, hsame.length, hsame.lengthWritten, hsame.pl]

/-- Settles O43: no case of a step writes `cfg`. -/
theorem noStepChangesConfiguration : Obligations.NoStepChangesConfiguration := by
  intro s t h
  cases transition_of_step h with
  | field _ hf => exact hf.cfg_eq
  | reset | clear | idleCycle | emptyQueue | delimiter | marker | read => rfl

/-- Settles O45: only the checksum rows set `held`, only the id row and reset clear it, and inside the invariant no row
that writes a field of the packet runs while it is set. -/
theorem heldPacketStaysUntilIdByteOrReset : Obligations.HeldPacketStaysUntilIdByteOrReset := by
  intro s t h hstep
  rcases fields_of_step hstep with ⟨hreset, hclear⟩ | ⟨b, hb, hf⟩ | hsame
  · have hno : t.held ≠ true := by simp [hclear]
    exact ⟨fun _ ht => absurd ht hno, fun _ _ => .inr hreset, fun _ ht => absurd ht hno⟩
  · refine ⟨fun hs ht => ?_, fun hs ht => .inl ⟨hf.held_cleared hs ht, b, hb⟩, fun hs ht => ?_⟩
    · obtain ⟨hc, hev⟩ := hf.held_set hs ht
      exact ⟨hc, ⟨b, hb⟩, hev⟩
    · obtain ⟨hc, -⟩ := h.heldFrame hs
      exact hf.heldPacket_eq hc ht
  · rw [hsame.held]
    exact ⟨fun hs ht => by simp [hs] at ht, fun hs ht => by simp [hs] at ht, fun _ _ => hsame.heldPacket_eq⟩

/-- Settles O33: every conjunct is a field of `State.resetWith`, and an empty buffer reports each cell unwritten. -/
theorem resetStateHoldsResetValues : Obligations.ResetStateHoldsResetValues := by
  refine ⟨rfl, fun c => ⟨rfl, rfl, rfl, rfl, rfl, rfl, rfl, rfl, fun a ha => ?_, rfl, rfl⟩⟩
  exact ⟨outCell [] a.toNat, if_neg ha.not_ge, rfl⟩

end Sys2Proof
end

section
/-! PROOFS. The values behind the unwritten marks (R20, log 3). Each register operation relates states that differ only
there to states that again differ only there; a row is a composition of register operations, so it answers alike. -/

namespace Sys2Proof.Machine

/-! ## What such states share -/

namespace SameButUnwritten

variable {s t : State}

theorem cfg_eq (h : SameButUnwritten s t) : t.cfg = s.cfg := by rw [h.1]

theorem cursor_eq (h : SameButUnwritten s t) : t.cursor = s.cursor := by rw [h.1]

theorem esc_eq (h : SameButUnwritten s t) : t.esc = s.esc := by rw [h.1]

theorem crc_eq (h : SameButUnwritten s t) : t.crc = s.crc := by rw [h.1]

theorem pl_eq (h : SameButUnwritten s t) : t.pl = s.pl := by rw [h.1]

theorem held_eq (h : SameButUnwritten s t) : t.held = s.held := by rw [h.1]

theorem input_eq (h : SameButUnwritten s t) : t.input = s.input := by rw [h.1]

theorem idWritten_eq (h : SameButUnwritten s t) : t.idWritten = s.idWritten := by rw [h.1]

theorem lengthWritten_eq (h : SameButUnwritten s t) : t.lengthWritten = s.lengthWritten := by rw [h.1]

theorem id_eq (h : SameButUnwritten s t) (hw : s.idWritten = true) : t.id = s.id := h.2.1 hw

theorem length_eq (h : SameButUnwritten s t) (hw : s.lengthWritten = true) : t.length = s.length := h.2.2.1 hw

theorem statusPorts_eq (h : SameButUnwritten s t) : statusPorts t = statusPorts s := by
  rw [h.1]
  rfl

theorem plData_eq (h : SameButUnwritten s t) (a : Byte) : plData t a = plData s a := by
  simp only [plData, h.cfg_eq, h.pl_eq]

/-- An unwritten register shows nothing, a written one the same byte. -/
theorem outId_hide (h : SameButUnwritten s t) : (outId t).hide = (outId s).hide := by
  cases hw : s.idWritten with
  | false => simp [PortRead.hide, h.idWritten_eq, hw]
  | true => simp [PortRead.hide, outId, h.idWritten_eq, hw, h.id_eq hw]

theorem outLength_hide (h : SameButUnwritten s t) : (outLength t).hide = (outLength s).hide := by
  cases hw : s.lengthWritten with
  | false => simp [PortRead.hide, h.lengthWritten_eq, hw]
  | true => simp [PortRead.hide, outLength, h.lengthWritten_eq, hw, h.length_eq hw]

/-- A held packet has its id and length written (R19 (d)), so it is the same packet. -/
theorem heldPacket_eq (h : SameButUnwritten s t) (hinv : HeldInv s) : heldPacket t = heldPacket s := by
  unfold heldPacket
  rw [h.held_eq]
  split
  next hh =>
    obtain ⟨-, hidw, hlenw, -⟩ := hinv hh
    rw [h.id_eq hidw, h.length_eq hlenw, h.pl_eq]
  next => rfl

/-! ## The register operations -/

theorem emit (h : SameButUnwritten s t) (e : Event) : SameButUnwritten (emit e s) (emit e t) :=
  ⟨congrArg (Machine.emit e) h.1, h.2⟩

theorem setCursor (h : SameButUnwritten s t) (c : Cursor) : SameButUnwritten (setCursor c s) (setCursor c t) :=
  ⟨congrArg (Machine.setCursor c) h.1, h.2⟩

theorem setEsc (h : SameButUnwritten s t) (v : Bool) : SameButUnwritten (setEsc v s) (setEsc v t) :=
  ⟨congrArg (Machine.setEsc v) h.1, h.2⟩

theorem setHeld (h : SameButUnwritten s t) (v : Bool) : SameButUnwritten (setHeld v s) (setHeld v t) :=
  ⟨congrArg (Machine.setHeld v) h.1, h.2⟩

theorem restartCrc (h : SameButUnwritten s t) : SameButUnwritten (restartCrc s) (restartCrc t) :=
  ⟨congrArg Machine.restartCrc h.1, h.2⟩

theorem accumulate (h : SameButUnwritten s t) (b : Byte) : SameButUnwritten (accumulate b s) (accumulate b t) :=
  ⟨congrArg (Machine.accumulate b) h.1, h.2⟩

theorem writePayload (h : SameButUnwritten s t) (i : Nat) (b : Byte) :
    SameButUnwritten (writePayload i b s) (writePayload i b t) :=
  ⟨congrArg (Machine.writePayload i b) h.1, h.2⟩

theorem takeInput (h : SameButUnwritten s t) (w : List Stimulus) :
    SameButUnwritten { s with input := w } { t with input := w } :=
  ⟨congrArg (fun u : State => { u with input := w }) h.1, h.2⟩

theorem writeId (h : SameButUnwritten s t) (b : Byte) : SameButUnwritten (writeId b s) (writeId b t) := by
  obtain ⟨ht, -, hlen, hx⟩ := h
  exact ⟨congrArg (Machine.writeId b) ht, fun _ => rfl, hlen, hx⟩

theorem writeLength (h : SameButUnwritten s t) (b : Byte) :
    SameButUnwritten (writeLength b s) (writeLength b t) := by
  obtain ⟨ht, hid, -, hx⟩ := h
  exact ⟨congrArg (Machine.writeLength b) ht, hid, fun _ => rfl, hx⟩

theorem unwriteFields (h : SameButUnwritten s t) : SameButUnwritten (unwriteFields s) (unwriteFields t) := by
  obtain ⟨ht, -, -, hx⟩ := h
  exact ⟨congrArg Machine.unwriteFields ht, nofun, nofun, hx⟩

theorem setSampled (h : SameButUnwritten s t) {x y : Sample} (hxy : y.hide = x.hide) :
    SameButUnwritten (setSampled x s) (setSampled y t) := by
  obtain ⟨ht, hid, hlen, -⟩ := h
  exact ⟨congrArg (Machine.setSampled y) ht, hid, hlen, congrArg some hxy⟩

end SameButUnwritten

/-! ## The rows and the step -/

/-- Two answers agree: next states that again differ only behind the unwritten marks, and the same faults. -/
structure AnswersAlike (r r' : Result) : Prop where
  next : ∀ s', r = .next s' → ∃ t', r' = .next t' ∧ SameButUnwritten s' t'
  fault : ∀ f, r = .fault f → r' = .fault f

theorem SameButUnwritten.answersAlike {s t : State} (h : SameButUnwritten s t) :
    AnswersAlike (.next s) (.next t) where
  next _ e := by
    cases e
    exact ⟨t, rfl, h⟩
  fault _ e := nomatch e

theorem answersAlike_fault (f : Fault) : AnswersAlike (.fault f) (.fault f) where
  next _ e := nomatch e
  fault _ e := e

/-- A field row reads `length` only at a payload byte. -/
theorem FieldStep.alike {s s' t : State} {b : Byte} (hf : FieldStep s b s') (h : SameButUnwritten s t)
    (hlen : ∀ i, s.cursor = .payload i → t.length = s.length) :
    ∃ t', FieldStep t b t' ∧ SameButUnwritten s' t' := by
  have hcur := h.cursor_eq
  have hcfg := h.cfg_eq
  have hcrc := h.crc_eq
  cases hf with
  | @payload i hc hi hl =>
    exact ⟨_, .payload (hcur.trans hc) (hcfg ▸ hi) (hlen i hc ▸ hl),
      (((h.writePayload i b).accumulate b).setCursor (.payload (i + 1))).emit .none⟩
  | @payloadLast i hc hi hl =>
    exact ⟨_, .payloadLast (hcur.trans hc) (hcfg ▸ hi) (hlen i hc ▸ hl),
      (((h.writePayload i b).accumulate b).setCursor .awaitingChecksum).emit .none⟩
  | id hc =>
    exact ⟨_, .id (hcur.trans hc),
      ((((h.writeId b).setHeld false).accumulate b).setCursor .awaitingLength).emit .none⟩
  | len hc hb hm =>
    exact ⟨_, .len (hcur.trans hc) hb (hcfg ▸ hm),
      (((h.writeLength b).accumulate b).setCursor (.payload 0)).emit .none⟩
  | lenZero hc hb =>
    exact ⟨_, .lenZero (hcur.trans hc) hb,
      (((h.writeLength b).accumulate b).setCursor .awaitingChecksum).emit .none⟩
  | lenOverflow hc hm =>
    exact ⟨_, .lenOverflow (hcur.trans hc) (hcfg ▸ hm), (h.setCursor .idle).emit .lenOverflow⟩
  | checksumOk hc hb =>
    exact ⟨_, .checksumOk (hcur.trans hc) (by rw [hcfg, hcrc, hb]),
      ((h.setHeld true).setCursor .idle).emit .frameOk⟩
  | checksumBad hc hb =>
    exact ⟨_, .checksumBad (hcur.trans hc) (by rwa [hcfg, hcrc]),
      ((h.setHeld true).setCursor .idle).emit .crcMismatch⟩
  | idleNoise hc => exact ⟨_, .idleNoise (hcur.trans hc), h.emit .none⟩

theorem dispatchField_alike {s t : State} (hinv : DecoderInv s) (h : SameButUnwritten s t) (b : Byte) :
    AnswersAlike (dispatchField b s) (dispatchField b t) := by
  have hlen : ∀ i, s.cursor = .payload i → t.length = s.length := fun i hc => by
    obtain ⟨-, hw, -⟩ := (frameInv_payload hc).mp hinv.frame
    exact h.length_eq hw
  obtain ⟨s', hs⟩ := hinv.exists_fieldStep b
  obtain ⟨t', ht, hst⟩ := hs.alike h hlen
  rw [hs.dispatchField_eq, ht.dispatchField_eq]
  exact hst.answersAlike

theorem answerRead_alike {s t : State} (h : SameButUnwritten s t) {x y : Sample} (hxy : y.hide = x.hide) :
    AnswersAlike (answerRead x s) (answerRead y t) :=
  (h.setSampled hxy).answersAlike

theorem execReadId_alike {s t : State} (h : SameButUnwritten s t) :
    AnswersAlike (execReadId s) (execReadId t) :=
  answerRead_alike h (congrArg Sample.id h.outId_hide)

theorem execReadLength_alike {s t : State} (h : SameButUnwritten s t) :
    AnswersAlike (execReadLength s) (execReadLength t) :=
  answerRead_alike h (congrArg Sample.length h.outLength_hide)

theorem execReadPayload_alike {s t : State} (h : SameButUnwritten s t) (a : Byte) :
    AnswersAlike (execReadPayload a s) (execReadPayload a t) := by
  unfold execReadPayload
  rw [h.plData_eq]
  cases plData s a with
  | ok r => exact answerRead_alike h rfl
  | error f => exact answersAlike_fault f

theorem execReadStatus_alike {s t : State} (h : SameButUnwritten s t) :
    AnswersAlike (execReadStatus s) (execReadStatus t) :=
  answerRead_alike h (congrArg Sample.status h.statusPorts_eq)

section

variable {s t : State} {rest : List Stimulus} (hinv : DecoderInv s) (h : SameButUnwritten s t)

include hinv h

theorem step_byte_alike {x : Byte} (hin : s.input = .edge (byteWord x) :: rest) :
    AnswersAlike (step s) (step t) := by
  have hat : t.cfg.admitted = true := h.cfg_eq ▸ hinv.config
  have hint : t.input = .edge (byteWord x) :: rest := h.input_eq.trans hin
  have hrest := h.takeInput rest
  rcases byte_cases s.cfg s.esc x with rfl | ⟨he, rfl, -⟩ | hx
  · rw [step_delim hinv.config hin, step_delim hat (h.cfg_eq ▸ hint)]
    exact ((((hrest.setCursor .awaitingId).setEsc false).restartCrc).emit .none).answersAlike
  · rw [step_marker hinv.config hin he, step_marker hat (h.cfg_eq ▸ hint) (h.esc_eq.trans he)]
    exact ((hrest.setEsc true).emit .none).answersAlike
  · have hb : logicalByte t.cfg t.esc x = logicalByte s.cfg s.esc x := by rw [h.cfg_eq, h.esc_eq]
    rw [step_completing hinv.config hin hx, step_completing hat hint (by rwa [h.cfg_eq, h.esc_eq]), hb]
    exact dispatchField_alike (hinv.congr false s.eventQ rest s.sampled) (hrest.setEsc false) _

theorem step_edge_alike {iw : InputWord} (hin : s.input = .edge iw :: rest) : AnswersAlike (step s) (step t) := by
  have hat : t.cfg.admitted = true := h.cfg_eq ▸ hinv.config
  have hrest := h.takeInput rest
  by_cases hbyte : iwRst iw = false ∧ iwClear iw = false ∧ iwValid iw = true
  · obtain ⟨hr, hc, hv⟩ := hbyte
    rw [← byteWord_iwByte hr hc hv] at hin
    exact step_byte_alike hinv h hin
  · rw [step_cons hinv.config hin, step_cons hat (h.input_eq.trans hin), decode_edge, decode_edge, selectEdge,
      selectEdge]
    split_ifs with hr hc hv
    · exact ((((hrest.setCursor .idle).setEsc false).restartCrc.setHeld false).emit .none).unwriteFields.answersAlike
    · exact ((((hrest.setCursor .idle).setEsc false).restartCrc).emit .none).answersAlike
    · exact absurd ⟨by simpa using hr, by simpa using hc, hv⟩ hbyte
    · exact (hrest.emit .none).answersAlike

/-- R20: inside the invariant a step does not look behind an unwritten mark, except to show it as unwritten. -/
theorem step_alike : AnswersAlike (step s) (step t) := by
  have hat : t.cfg.admitted = true := h.cfg_eq ▸ hinv.config
  cases hin : s.input with
  | nil =>
    rw [step_nil hinv.config hin, step_nil hat (h.input_eq.trans hin)]
    exact (h.emit .none).answersAlike
  | cons d rest =>
    have hrest := h.takeInput rest
    have hs := step_cons hinv.config hin
    have ht := step_cons hat (h.input_eq.trans hin)
    cases d with
    | edge iw => exact step_edge_alike hinv h hin
    | readId =>
      rw [hs, ht]
      exact execReadId_alike hrest
    | readLength =>
      rw [hs, ht]
      exact execReadLength_alike hrest
    | readPayload a =>
      rw [hs, ht]
      exact execReadPayload_alike hrest a
    | readStatus =>
      rw [hs, ht]
      exact execReadStatus_alike hrest

end

end Sys2Proof.Machine

namespace Sys2Proof

open Machine

/-- Settles O52: the steps agree by `step_alike`; the ports, and the held packet of R19 (d), read `id` and `length`
only where they are written. -/
theorem unwrittenValuesReachOnlyReportedReads : Obligations.UnwrittenValuesReachOnlyReportedReads := by
  intro s t hinv h
  obtain ⟨hnext, hfault⟩ := step_alike hinv h
  exact ⟨hnext, hfault, h.outId_hide, h.outLength_hide, h.plData_eq, h.statusPorts_eq, h.heldPacket_eq hinv.heldFrame⟩

end Sys2Proof
end

section
/-! PROOFS. The host's reads (R34): what one shows depends on the registers only, not on the queue or on an earlier
sample, so a read leaves the registers as they are and shows the same when repeated. -/

namespace Sys2Proof.Machine

/-- What a host read of `s` shows (R94 to R97): nothing where the address has no cell, and nothing at an edge. -/
def readSample (s : State) : Stimulus → Option Sample
  | .edge _ => none
  | .readId => some (.id (outId s))
  | .readLength => some (.length (outLength s))
  | .readPayload a => if a.toNat < s.cfg.maxp then some (.payload (outCell s.pl a.toNat)) else none
  | .readStatus => some (.status (statusPorts s))

/-- No port looks at the host's side. -/
@[simp] theorem readSample_input_sampled (s : State) (w : List Stimulus) (y : Option Sample) (d : Stimulus) :
    readSample { s with input := w, sampled := y } d = readSample s d := by
  cases d <;> rfl

theorem answerRead_next {x : Sample} {s t : State} :
    answerRead x s = .next t ↔ t = { s with sampled := some x } := by
  simp [eq_comm (b := t)]

/-- A read answers a next state exactly where it shows something, and then only records it. -/
theorem exec_read_next {s t : State} {d : Stimulus} (hd : ∀ iw, d ≠ .edge iw) :
    exec (decode s d) s = .next t ↔ ∃ x, readSample s d = some x ∧ t = { s with sampled := some x } := by
  cases d with
  | edge iw => exact absurd rfl (hd iw)
  | readId | readLength | readStatus => exact answerRead_next.trans (by simp [readSample])
  | readPayload a => exact execReadPayload_next.trans (by simp [readSample])

theorem step_read_next {s t : State} {d : Stimulus} {rest : List Stimulus} (ha : s.cfg.admitted = true)
    (hd : ∀ iw, d ≠ .edge iw) (hin : s.input = d :: rest) :
    step s = .next t ↔ ∃ x, readSample s d = some x ∧ t = { s with input := rest, sampled := some x } := by
  rw [step_cons ha hin, ← decode_input s rest, ← readSample_input_sampled s rest s.sampled]
  exact exec_read_next hd

end Sys2Proof.Machine

namespace Sys2Proof

open Machine

/-- Settles O24: a read records its sample only, and the ports it leaves behind show that sample again. -/
theorem readsChangeNoRegister : Obligations.ReadsChangeNoRegister := by
  intro s t d rest hd hin h
  have ha := admitted_of_step h
  obtain ⟨x, hx, rfl⟩ := (step_read_next ha hd hin).mp h
  refine ⟨rfl, fun rest' => ?_⟩
  have hagain : readSample { s with input := d :: rest', sampled := some x } d = some x := by simpa using hx
  exact (step_read_next (s := { s with input := d :: rest', sampled := some x }) ha hd rfl).mpr ⟨x, hagain, rfl⟩

end Sys2Proof
end

section
/-! PROOFS. The encodings (R40, R43, R45, R46, R47, R49): which logical byte a field row carries, what selection does
with it, and that the encoder and stuffing are undone by the receiver. -/

namespace Sys2Proof

open Machine

/-! ## The operand of a field row -/

/-- The logical byte that a field row carries, its operand or the zero that C.LEN_ZERO stands for (R61 to R69); none
for any other row. -/
def Instr.fieldByte : Instr → Option Byte
  | .cPayload b | .cPayloadLast b | .cId b | .cLen b | .cLenOverflow b => some b
  | .cChecksumOk b | .cChecksumBad b | .cIdleNoise b => some b
  | .cLenZero => some 0
  | .reset | .clear | .idleCycle | .cDelim | .cEscSet | .cUnescape _ => none
  | .readId | .readLength | .readPayload _ | .readStatus => none

variable {s : State} {i : Instr} {b : Byte}

theorem isField_of_fieldByte (h : i.fieldByte = some b) : i.isField = true := by
  cases i with
  | reset | clear | idleCycle | cDelim | cEscSet | cUnescape | readId | readLength | readPayload | readStatus => cases h
  | _ => rfl

theorem encode_of_fieldByte (c : Config) (h : i.fieldByte = some b) : encode c i = .edge (byteWord b) := by
  cases i <;> cases h <;> rfl

theorem byteClass_eq_ordinary_iff {c : Config} {x : Byte} :
    byteClass c x = .ordinary ↔ x ≠ c.delim ∧ x ≠ c.esc := by
  unfold byteClass
  split_ifs <;> simp_all

/-- A field row that one input word can carry has an unreserved logical byte (R42). -/
theorem unreserved_of_wellFormed {c : Config} (h : i.fieldByte = some b) (hw : i.wellFormed c = true) :
    b ≠ c.delim ∧ b ≠ c.esc := by
  rw [← byteClass_eq_ordinary_iff]
  cases i <;> cases h <;> simp_all [Instr.wellFormed]

/-! ## Selection -/

theorem selectEdge_of_rst {iw : InputWord} (hr : iwRst iw = true) : selectEdge s iw = .reset := if_pos hr

theorem selectEdge_of_clear {iw : InputWord} (hr : iwRst iw = false) (hc : iwClear iw = true) :
    selectEdge s iw = .clear := by
  simp [selectEdge, hr, hc]

theorem selectEdge_of_not_valid {iw : InputWord} (hr : iwRst iw = false) (hc : iwClear iw = false)
    (hv : iwValid iw = false) : selectEdge s iw = .idleCycle := by
  simp [selectEdge, hr, hc, hv]

theorem decode_byteWord (s : State) (x : Byte) : decode s (.edge (byteWord x)) = selectByte s x :=
  selectEdge_byteWord s x

theorem selectByte_delim (s : State) : selectByte s s.cfg.delim = .cDelim := if_pos rfl

theorem selectByte_escaped {x : Byte} (hd : x ≠ s.cfg.delim) (he : s.esc = true) : selectByte s x = .cUnescape x := by
  simp [selectByte, hd, he]

theorem selectByte_marker (hd : s.cfg.esc ≠ s.cfg.delim) (he : s.esc = false) :
    selectByte s s.cfg.esc = .cEscSet := by
  simp [selectByte, hd, he]

/-- The row that a logical byte selects carries that byte. -/
@[simp] theorem fieldByte_selectField (s : State) (b : Byte) : (selectField s b).fieldByte = some b := by
  unfold selectField
  split
  next => split_ifs <;> rfl
  next => rfl
  next =>
    split_ifs with hm hb
    · rfl
    · exact congrArg some hb.symm
    · rfl
  next => split_ifs <;> rfl
  next => rfl

theorem enabled_cPayload :
    (Instr.cPayload b).enabled s = true ↔
      ∃ n, s.cursor = .payload n ∧ n < s.cfg.maxp ∧ n + 1 < s.length.toNat := by
  cases hc : s.cursor <;> simp [Instr.enabled, hc]

theorem enabled_cPayloadLast :
    (Instr.cPayloadLast b).enabled s = true ↔
      ∃ n, s.cursor = .payload n ∧ n < s.cfg.maxp ∧ n + 1 = s.length.toNat := by
  cases hc : s.cursor <;> simp [Instr.enabled, hc]

/-- A field row's condition leaves no other row for its byte (R49 lines 7 to 15). -/
theorem selectField_of_enabled (h : i.fieldByte = some b) (he : i.enabled s = true) : selectField s b = i := by
  cases i <;> cases h
  case cPayload =>
    obtain ⟨n, hc, -, hl⟩ := enabled_cPayload.mp he
    simp [selectField, hc, hl.ne]
  case cPayloadLast =>
    obtain ⟨n, hc, -, hl⟩ := enabled_cPayloadLast.mp he
    simp [selectField, hc, hl]
  case cLen =>
    obtain ⟨hc, hb, hm⟩ := of_decide_eq_true he
    simpa [selectField, hc, hm.not_gt] using hb
  case cId | cLenZero | cLenOverflow | cChecksumOk | cChecksumBad | cIdleNoise => simp_all [selectField, Instr.enabled]

/-- A byte that has a field row meets the condition of one. -/
theorem exists_enabled_of_fieldStep {t : State} (h : FieldStep s b t) :
    ∃ i : Instr, i.fieldByte = some b ∧ i.enabled s = true := by
  cases h with
  | payload hc hi hl => exact ⟨.cPayload b, rfl, enabled_cPayload.mpr ⟨_, hc, hi, hl⟩⟩
  | payloadLast hc hi hl => exact ⟨.cPayloadLast b, rfl, enabled_cPayloadLast.mpr ⟨_, hc, hi, hl⟩⟩
  | id hc => exact ⟨.cId b, rfl, decide_eq_true hc⟩
  | len hc hb hm => exact ⟨.cLen b, rfl, decide_eq_true ⟨hc, hb, hm⟩⟩
  | lenZero hc hb => exact ⟨.cLenZero, congrArg some hb.symm, decide_eq_true hc⟩
  | lenOverflow hc hm => exact ⟨.cLenOverflow b, rfl, decide_eq_true ⟨hc, hm⟩⟩
  | checksumOk hc hb => exact ⟨.cChecksumOk b, rfl, decide_eq_true ⟨hc, hb⟩⟩
  | checksumBad hc hb => exact ⟨.cChecksumBad b, rfl, decide_eq_true ⟨hc, hb⟩⟩
  | idleNoise hc => exact ⟨.cIdleNoise b, rfl, decide_eq_true hc⟩

/-- R49 lines 7 to 15, inside the invariant: the row that a byte selects is the one for it whose condition holds. -/
theorem eq_selectField_iff (hinv : DecoderInv s) :
    i = selectField s b ↔ i.fieldByte = some b ∧ i.enabled s = true := by
  constructor
  · rintro rfl
    obtain ⟨t, ht⟩ := hinv.exists_fieldStep b
    obtain ⟨j, hj, he⟩ := exists_enabled_of_fieldStep ht
    rw [selectField_of_enabled hj he]
    exact ⟨hj, he⟩
  · rintro ⟨h, he⟩
    exact (selectField_of_enabled h he).symm

/-! ## Decoding and encoding -/

/-- A field row carried by one word comes back: its byte is unreserved, and its condition picks the row. -/
theorem decode_encode_of_fieldByte (h : i.fieldByte = some b) (hw : i.wellFormed s.cfg = true)
    (he : i.enabled s = true) (hesc : s.esc = false) : decode s (encode s.cfg i) = i := by
  obtain ⟨hd, hx⟩ := unreserved_of_wellFormed h hw
  rw [encode_of_fieldByte s.cfg h, decode_byteWord, selectByte_raw hd hesc hx]
  exact selectField_of_enabled h he

/-- What a byte selects, however it is read, is encoded as that byte. -/
theorem encode_selectByte (s : State) (x : Byte) : encode s.cfg (selectByte s x) = .edge (byteWord x) := by
  rcases byte_cases s.cfg s.esc x with rfl | ⟨he, rfl, hd⟩ | hx
  · rw [selectByte_delim]
    rfl
  · rw [selectByte_marker hd he]
    rfl
  · obtain ⟨hd, hx⟩ := completesByte_iff.mp hx
    cases he : s.esc with
    | true =>
      rw [selectByte_escaped hd he]
      rfl
    | false =>
      rw [selectByte_raw hd he (by simpa [he] using hx)]
      exact encode_of_fieldByte s.cfg (fieldByte_selectField s x)

/-! ## Stuffing -/

theorem stuff_of_unreserved {c : Config} {v : Byte} (hd : v ≠ c.delim) (hx : v ≠ c.esc) : stuff c v = [v] :=
  if_neg (not_or.mpr ⟨hd, hx⟩)

theorem stuff_of_reserved {c : Config} {v : Byte} (hv : v = c.delim ∨ v = c.esc) :
    stuff c v = [c.esc, v ^^^ c.esc] :=
  if_pos hv

/-- R5, R43: the second byte of a reserved value's escape form is no delimiter, since neither `ESC` nor `DELIM` is 0. -/
theorem escaped_ne_delim {c : Config} (hc : c.admitted = true) {v : Byte} (hv : v = c.delim ∨ v = c.esc) :
    v ^^^ c.esc ≠ c.delim := by
  obtain ⟨-, hesc, hdelim, -⟩ := c.admitted_iff.mp hc
  rcases hv with rfl | rfl
  · simpa using hesc
  · simpa using hdelim.symm

/-- R42, R52: the receiver undoes the exclusive OR of the escape form. -/
theorem logicalByte_escaped (c : Config) (v : Byte) : logicalByte c true (v ^^^ c.esc) = v := by
  simp [logicalByte]

/-! ## The codes of the status ports -/

/-- R45: the tag above the index. -/
theorem cursorCode_toNat (c : Cursor) :
    (cursorCode c).toNat = (cursorTag c).toNat * 256 + (cursorIndex c).toNat := by
  rw [cursorCode, BitVec.toNat_append, ← Nat.shiftLeft_add_eq_or_of_lt (cursorIndex c).isLt, Nat.shiftLeft_eq]

theorem cursorTag_le (c : Cursor) : (cursorTag c).toNat ≤ 0b100 := by
  cases c <;> simp [cursorTag]

end Sys2Proof
end

section
/-! PROOFS. The obligations about one encoding at a time, settled from the lemmas above and the step's own. -/

namespace Sys2Proof

open Machine

/-- Settles O28: a field row comes back by its condition, every other row by its own fixed bits or its flag. -/
theorem decodeOfEncodeIsIdentity : Obligations.DecodeOfEncodeIsIdentity := by
  intro s i hw he hesc
  cases hi : i.fieldByte with
  | some b => exact decode_encode_of_fieldByte hi hw he (hesc (isField_of_fieldByte hi))
  | none =>
    cases i with
    | reset | clear | idleCycle | readId | readLength | readPayload | readStatus => rfl
    | cDelim => exact (decode_byteWord s _).trans (selectByte_delim s)
    | cEscSet =>
      have hne : s.cfg.esc ≠ s.cfg.delim := by simpa [Instr.wellFormed] using hw
      have hflag : s.esc = false := by simpa [Instr.enabled] using he
      exact (decode_byteWord s _).trans (selectByte_marker hne hflag)
    | cUnescape x =>
      obtain ⟨hflag, hd⟩ := of_decide_eq_true he
      exact (decode_byteWord s x).trans (selectByte_escaped hd hflag)
    | _ => cases hi

/-- Settles O3: lines 1 to 6 are the branches of selection, and lines 7 to 15 are `eq_selectField_iff`. -/
theorem operationMapSelectsOneRow : Obligations.OperationMapSelectsOneRow := by
  refine ⟨fun _ _ => selectEdge_of_rst, fun _ _ => selectEdge_of_clear, fun _ _ => selectEdge_of_not_valid,
    fun s => ?_, fun s x hd he hx => ?_, fun s x hd he => ?_, fun s x hd he hx => ?_, fun s b i hinv hi => ?_⟩
  · rw [decode_byteWord, selectByte_delim]
  · subst hx
    rw [decode_byteWord, selectByte_marker hd he]
  · rw [decode_byteWord, selectByte_escaped hd he]
  · rw [decode_byteWord, selectByte_raw hd he hx]
  · have hbyte : i.fieldByte = some b ↔ (i = .cLenZero → b = 0) := by
      fin_cases hi <;> simp [Instr.fieldByte, eq_comm (a := b)]
    rw [eq_selectField_iff hinv, hbyte, and_comm]

/-- Settles O29: the three words that consume nothing are fixed, and a byte comes back by `encode_selectByte`. -/
theorem encodeOfDecodeKeepsReadBits : Obligations.EncodeOfDecodeKeepsReadBits := by
  intro s iw
  change _ = Stimulus.edge (if iwRst iw then _ else if iwClear iw then _ else if iwValid iw then iw else 0)
  rw [decode_edge, selectEdge]
  split_ifs with hr hc hv
  · rfl
  · rfl
  · rw [encode_selectByte, byteWord_iwByte (by simpa using hr) (by simpa using hc) hv]
  · rfl

/-- Settles O32: `escaped_ne_delim` keeps delimiters off the wire, and `logicalByte_escaped` reads the value back. -/
theorem stuffingIsUndoneByTheReceiver : Obligations.StuffingIsUndoneByTheReceiver := by
  intro c v hc
  refine ⟨fun y hy => ?_, fun hd hx => ?_, fun hv => ?_⟩
  · by_cases hv : v = c.delim ∨ v = c.esc
    · rw [stuff_of_reserved hv] at hy
      rcases List.mem_pair.mp hy with rfl | rfl
      · exact (delim_ne_esc_of_admitted hc).symm
      · exact escaped_ne_delim hc hv
    · obtain ⟨hd, hx⟩ := not_or.mp hv
      rw [stuff_of_unreserved hd hx, List.mem_singleton] at hy
      exact hy ▸ hd
  · exact ⟨stuff_of_unreserved hd hx, completesByte_iff.mpr ⟨hd, .inr hx⟩⟩
  · exact ⟨_, stuff_of_reserved hv, rfl, completesByte_iff.mpr ⟨escaped_ne_delim hc hv, .inl rfl⟩,
      logicalByte_escaped c v⟩

/-- Settles O1: `step_cons` for an action in the queue, `step_nil` for none. -/
theorem stepRunsDecodedOperation : Obligations.StepRunsDecodedOperation := fun _ ha =>
  ⟨fun _ _ => step_cons ha, step_nil ha⟩

/-- Settles O25: the code of a cursor is its tag times 256 plus its index, and no tag is above 100. -/
theorem cursorPortEncoding : Obligations.CursorPortEncoding := by
  refine ⟨rfl, rfl, rfl, rfl, fun i hi => ?_, fun c => ?_⟩
  · rw [cursorCode_toNat]
    exact congrArg (0b011 * 256 + ·) (Nat.mod_eq_of_lt (Nat.lt_succ_of_le hi))
  · rw [cursorCode_toNat]
    have htag := cursorTag_le c
    have hindex := (cursorIndex c).isLt
    omega

/-- Settles O26: the four events, one by one. -/
theorem eventPortEncoding : Obligations.EventPortEncoding := by
  refine ⟨rfl, rfl, rfl, rfl, fun e => ?_, fun e => ?_⟩ <;> cases e <;> decide

/-- Settles O27: the nine words are concrete, and decoding them computes. -/
theorem sampleWordsDecode : Obligations.SampleWordsDecode := by
  unfold Obligations.SampleWordsDecode
  decide

end Sys2Proof
end

section
/-! PROOFS. Frames on the wire (R42 to R44, R48): a logical byte runs its field row however it is stuffed, so a stuffed
sequence runs the field rows of its bytes one after the other, and those of a frame collect its packet. -/

namespace Sys2Proof.Machine

/-! ## Runs -/

theorem run_succ {M : Host.Core} {k : Nat} {s t : M.State} (h : M.step s = .next t) : M.run (k + 1) s = M.run k t := by
  simp only [Host.Core.run, h]

/-- A run that completes can be continued from its last state. -/
theorem run_add {M : Host.Core} {m n : Nat} {s t : M.State} (h : M.run m s = .next t) :
    M.run (m + n) s = M.run n t := by
  induction m generalizing s with
  | zero =>
    cases h
    rw [Nat.zero_add]
  | succ m ih =>
    rw [Nat.succ_add_eq_add_succ m n, Nat.add_succ]
    cases hstep : M.step s with
    | next u =>
      rw [run_succ hstep] at h ⊢
      exact ih h
    | fault r => simp [Host.Core.run, hstep] at h
    | refused r => simp [Host.Core.run, hstep] at h

/-! ## One logical byte -/

/-- A field row overwrites the event, and reads neither `esc` nor the queue. -/
theorem FieldStep.congr {s t : State} {b : Byte} (h : FieldStep s b t) (v : Bool) (e : Event) (w : List Stimulus) :
    FieldStep { s with esc := v, eventQ := e, input := w } b { t with esc := v, input := w } := by
  cases h with
  | payload hc hi hl => exact .payload hc hi hl
  | payloadLast hc hi hl => exact .payloadLast hc hi hl
  | id hc => exact .id hc
  | len hc hb hm => exact .len hc hb hm
  | lenZero hc hb => exact .lenZero hc hb
  | lenOverflow hc hm => exact .lenOverflow hc hm
  | checksumOk hc hb => exact .checksumOk hc hb
  | checksumBad hc hb => exact .checksumBad hc hb
  | idleNoise hc => exact .idleNoise hc

/-- The event of the edge before is overwritten by every field row (R90). -/
theorem FieldStep.of_event {s t : State} {b : Byte} (h : FieldStep s b t) (e : Event) :
    FieldStep { s with eventQ := e } b t := by
  have ht : { t with esc := s.esc, input := s.input } = t := by rw [← h.esc_eq, ← h.input_eq]
  exact ht ▸ h.congr s.esc e s.input

section

variable {s t : State} {v : Byte} {w : List Stimulus}

/-- R49: an unreserved byte, with no marker pending, runs its own field row. -/
theorem step_raw_next (ha : s.cfg.admitted = true) (he : s.esc = false) (hin : s.input = .edge (byteWord v) :: w)
    (hd : v ≠ s.cfg.delim) (hx : v ≠ s.cfg.esc) :
    step s = .next t ↔ FieldStep { s with input := w, esc := false } v t := by
  have hv : logicalByte s.cfg s.esc v = v := by simp [logicalByte, he]
  rw [step_completing ha hin (completesByte_iff.mpr ⟨hd, .inr hx⟩), hv]
  exact dispatchField_next

/-- R52: with a marker pending, the second byte of the escape form of any value runs the field row of the value. -/
theorem step_escaped (ha : s.cfg.admitted = true) (he : s.esc = true)
    (hin : s.input = .edge (byteWord (v ^^^ s.cfg.esc)) :: w) (hd : v ^^^ s.cfg.esc ≠ s.cfg.delim)
    (h : FieldStep { s with input := w, esc := false } v t) : step s = .next t := by
  rw [step_completing ha hin (completesByte_iff.mpr ⟨hd, .inl he⟩), he, logicalByte_escaped]
  exact h.dispatchField_eq

/-- R42: the escape form of any value, reserved or not, runs the field row of the value. -/
theorem run_escaped (ha : s.cfg.admitted = true) (he : s.esc = false)
    (hin : s.input = byteEdges [s.cfg.esc, v ^^^ s.cfg.esc] ++ w) (hd : v ^^^ s.cfg.esc ≠ s.cfg.delim)
    (h : FieldStep { s with input := w, esc := false } v t) : Host.Core.run core 2 s = .next t := by
  have hrow : step { s with input := byteEdges [v ^^^ s.cfg.esc] ++ w, esc := true, eventQ := .none } = .next t :=
    step_escaped ha rfl rfl hd (h.of_event .none)
  exact (run_succ (step_marker ha hin he)).trans (run_succ hrow)

/-- R43: a stuffed logical byte runs its field row. -/
theorem run_stuff (ha : s.cfg.admitted = true) (he : s.esc = false) (hin : s.input = byteEdges (stuff s.cfg v) ++ w)
    (h : FieldStep { s with input := w, esc := false } v t) :
    Host.Core.run core (stuff s.cfg v).length s = .next t := by
  by_cases hv : v = s.cfg.delim ∨ v = s.cfg.esc
  · rw [stuff_of_reserved hv] at hin ⊢
    exact run_escaped ha he hin (escaped_ne_delim ha hv) h
  · obtain ⟨hd, hx⟩ := not_or.mp hv
    rw [stuff_of_unreserved hd hx] at hin ⊢
    exact run_succ ((step_raw_next ha he hin hd hx).mpr h)

/-- The same with the queue and `esc` set in both states, so that it can be chained. -/
theorem run_stuff_row (ha : s.cfg.admitted = true) (h : FieldStep s v t) (w : List Stimulus) :
    Host.Core.run core (stuff s.cfg v).length { s with esc := false, input := byteEdges (stuff s.cfg v) ++ w } =
      .next { t with esc := false, input := w } :=
  run_stuff (s := { s with esc := false, input := byteEdges (stuff s.cfg v) ++ w }) ha rfl rfl
    (h.congr false s.eventQ w)

end

/-! ## A sequence of logical bytes -/

/-- The field rows of a sequence of logical bytes, one after the other, lead from one state to another. -/
inductive FieldRun : State → List Byte → State → Prop
  | nil (s : State) : FieldRun s [] s
  | cons {s t u : State} {b : Byte} {bs : List Byte} (h : FieldStep s b t) (hs : FieldRun t bs u) :
      FieldRun s (b :: bs) u

theorem FieldRun.append {s t u : State} {bs cs : List Byte} (h : FieldRun s bs t) (h' : FieldRun t cs u) :
    FieldRun s (bs ++ cs) u := by
  induction h with
  | nil => exact h'
  | cons hb _ ih => exact .cons hb (ih h')

theorem byteEdges_append (xs ys : List Byte) : byteEdges (xs ++ ys) = byteEdges xs ++ byteEdges ys :=
  List.map_append

/-- R43, R44: the machine on the stuffed bytes of a sequence runs the field rows of its bytes. -/
theorem FieldRun.run_flatMap_stuff {c : Config} {s t : State} {bs : List Byte} (h : FieldRun s bs t) (hc : s.cfg = c)
    (ha : c.admitted = true) (w : List Stimulus) :
    Host.Core.run core (bs.flatMap (stuff c)).length
        { s with esc := false, input := byteEdges (bs.flatMap (stuff c)) ++ w } =
      .next { t with esc := false, input := w } := by
  induction h with
  | nil => rfl
  | @cons s t u b bs hb _ ih =>
    subst hc
    rw [List.flatMap_cons, byteEdges_append, List.append_assoc, List.length_append]
    exact (run_add (run_stuff_row ha hb _)).trans (ih hb.cfg_eq)

/-! ## The packet of a frame -/

/-- The state has collected the id, a length of `n` and the payload bytes `bs` of a frame, with the checksum over them,
and expects the rest of the payload or, after the last byte, the checksum (R61 to R65, R82). -/
structure Collected (s : State) (id : Byte) (n : Nat) (bs : List Byte) : Prop where
  id_eq : s.id = id
  length_eq : s.length.toNat = n
  cells_eq : Memory.take s.pl bs.length = bs
  crc_eq : s.crc = crcOver s.cfg (id :: BitVec.ofNat 8 n :: bs)
  cursor_eq : s.cursor = if bs.length = n then .awaitingChecksum else .payload bs.length

/-- R63 to R65: the id and length bytes of a frame, with an accepted length. -/
theorem exists_fieldRun_header {s : State} (hc : s.cursor = .awaitingId) (hcrc : s.crc = s.cfg.crcInit) (id : Byte)
    {n : Nat} (hn : n ≤ s.cfg.maxp) (hbyte : n ≤ 255) :
    ∃ t, FieldRun s [id, BitVec.ofNat 8 n] t ∧ Collected t id n [] ∧ t.cfg = s.cfg := by
  have hto : (BitVec.ofNat 8 n).toNat = n := Nat.mod_eq_of_lt (Nat.lt_succ_of_le hbyte)
  have hcrc' : crcStep s.cfg (crcStep s.cfg s.crc id) (BitVec.ofNat 8 n) = crcOver s.cfg [id, BitVec.ofNat 8 n] := by
    rw [hcrc]
    rfl
  by_cases h0 : BitVec.ofNat 8 n = 0
  · have hn0 : ([] : List Byte).length = n := by rw [← hto, h0]; rfl
    exact ⟨_, .cons (.id hc) (.cons (.lenZero rfl h0) (.nil _)), ⟨rfl, hto, rfl, hcrc', (if_pos hn0).symm⟩, rfl⟩
  · have hn0 : ([] : List Byte).length ≠ n := fun h => h0 (by rw [← h]; rfl)
    exact ⟨_, .cons (.id hc) (.cons (.len rfl h0 (hto.trans_le hn)) (.nil _)),
      ⟨rfl, hto, rfl, hcrc', (if_neg hn0).symm⟩, rfl⟩

namespace Collected

variable {s : State} {id : Byte} {n : Nat} {bs : List Byte}

/-- R61, R62: the next payload byte. -/
theorem exists_fieldStep (h : Collected s id n bs) (hbs : bs.length < n) (hn : n ≤ s.cfg.maxp) (b : Byte) :
    ∃ t, FieldStep s b t ∧ Collected t id n (bs ++ [b]) := by
  have hc : s.cursor = .payload bs.length := h.cursor_eq.trans (if_neg hbs.ne)
  have hlen : (bs ++ [b]).length = bs.length + 1 := List.length_append
  have hcells : Memory.take (Memory.write s.pl bs.length b) (bs ++ [b]).length = bs ++ [b] := by
    rw [hlen, Memory.take_write, h.cells_eq]
  have hcrc : crcStep s.cfg s.crc b = crcOver s.cfg (id :: BitVec.ofNat 8 n :: (bs ++ [b])) := by
    rw [h.crc_eq]
    exact (crcOver_append s.cfg (id :: BitVec.ofNat 8 n :: bs) b).symm
  have hmax : bs.length < s.cfg.maxp := hbs.trans_le hn
  by_cases hl : bs.length + 1 = n
  · exact ⟨_, .payloadLast hc hmax (hl.trans h.length_eq.symm),
      h.id_eq, h.length_eq, hcells, hcrc, (if_pos (hlen.trans hl)).symm⟩
  · have hlt : bs.length + 1 < s.length.toNat := by rw [h.length_eq]; omega
    refine ⟨_, .payload hc hmax hlt, h.id_eq, h.length_eq, hcells, hcrc, ?_⟩
    rw [hlen, if_neg hl]

/-- R61, R62: the rest of the payload. -/
theorem exists_fieldRun (h : Collected s id n bs) {rest : List Byte} (hn : n ≤ s.cfg.maxp)
    (hrest : bs.length + rest.length = n) :
    ∃ t, FieldRun s rest t ∧ Collected t id n (bs ++ rest) ∧ t.cfg = s.cfg := by
  induction rest generalizing s bs with
  | nil => exact ⟨s, .nil s, by rwa [List.append_nil], rfl⟩
  | cons b rest ih =>
    rw [List.length_cons] at hrest
    obtain ⟨t, hb, ht⟩ := h.exists_fieldStep (by omega) hn b
    have hlen : (bs ++ [b]).length + rest.length = n := by rw [List.length_append, List.length_singleton]; omega
    obtain ⟨u, hu, hcol, hcfg⟩ := ih ht (hb.cfg_eq ▸ hn) hlen
    exact ⟨u, .cons hb hu, by simpa using hcol, hcfg.trans hb.cfg_eq⟩

/-- R67, R68: the checksum byte after the last payload byte. -/
theorem exists_checksumStep (h : Collected s id bs.length bs) (k : Byte) :
    ∃ t, FieldStep s k t ∧ t.cursor = .idle ∧ heldPacket t = some ⟨id, bs⟩ ∧
      t.eventQ = if k = frameChecksum s.cfg id bs then .frameOk else .crcMismatch := by
  have hc : s.cursor = .awaitingChecksum := h.cursor_eq.trans (if_pos rfl)
  have hk : frameChecksum s.cfg id bs = crcFinal s.cfg s.crc := by rw [h.crc_eq]; rfl
  have hpacket : some (Packet.mk s.id (Memory.take s.pl s.length.toNat)) = some ⟨id, bs⟩ := by
    rw [h.id_eq, h.length_eq, h.cells_eq]
  rw [hk]
  by_cases hb : k = crcFinal s.cfg s.crc
  · exact ⟨_, .checksumOk hc hb, rfl, hpacket, (if_pos hb).symm⟩
  · exact ⟨_, .checksumBad hc hb, rfl, hpacket, (if_neg hb).symm⟩

end Collected

/-- R44: the logical bytes of a frame, from the state after its delimiter. -/
theorem exists_fieldRun_frame {s : State} (hc : s.cursor = .awaitingId) (hcrc : s.crc = s.cfg.crcInit) (id : Byte)
    {payload : List Byte} (hn : payload.length ≤ s.cfg.maxp) (hbyte : payload.length ≤ 255) (k : Byte) :
    ∃ t, FieldRun s (coveredBytes id payload ++ [k]) t ∧ t.cursor = .idle ∧ heldPacket t = some ⟨id, payload⟩ ∧
      t.eventQ = if k = frameChecksum s.cfg id payload then .frameOk else .crcMismatch := by
  obtain ⟨u, hheader, hu, hucfg⟩ := exists_fieldRun_header hc hcrc id hn hbyte
  obtain ⟨v, hpayload, hv, hvcfg⟩ := hu.exists_fieldRun (hucfg ▸ hn) (Nat.zero_add _)
  obtain ⟨t, hk, ht⟩ := hv.exists_checksumStep k
  rw [hvcfg, hucfg] at ht
  exact ⟨t, (hheader.append hpayload).append (.cons hk (.nil t)), ht⟩

end Sys2Proof.Machine
end

section
/-! PROOFS. The obligations about wire forms as a whole. -/

namespace Sys2Proof

open Machine

/-- Settles O49: raw or escaped, the byte runs the one field row that leads to `t`. -/
theorem escapeFormActsAsTheRawByte : Obligations.EscapeFormActsAsTheRawByte := by
  intro s t b rest hinv he hd hx hv h
  have hrow := (step_raw_next (s := { s with input := .edge (byteWord b) :: rest }) hinv.config he rfl hd hx).mp h
  exact run_escaped (s := { s with input := byteEdges [s.cfg.esc, b ^^^ s.cfg.esc] ++ rest }) hinv.config he rfl hv hrow

/-- Settles O50: the delimiter starts the frame from any state, and the stuffed bytes after it run the field rows of
`exists_fieldRun_frame`. -/
theorem everyFrameIsDecodedToItsPacket : Obligations.EveryFrameIsDecodedToItsPacket := by
  intro s id payload k rest ha hn hin
  obtain ⟨-, -, -, hmax⟩ := s.cfg.admitted_iff.mp ha
  obtain ⟨t, hrun, hcur, hheld, hev⟩ :=
    exists_fieldRun_frame (s := startFrame s) rfl rfl id hn (hn.trans hmax) k
  refine ⟨{ t with esc := false, input := rest }, ?_, rfl, hcur, rfl, hheld, hev⟩
  exact (run_succ (step_delim ha hin)).trans (hrun.run_flatMap_stuff rfl ha rest)

end Sys2Proof
end

section
/-! PROOFS. Delimiter and escape handling (40_delimiter_escape.md R50 to R52): the two framing rows, and C.UNESCAPE as
the field row of the byte that it recovers. -/

namespace Sys2Proof.Machine

/-- R52: with a prefix pending, C.UNESCAPE is the field row of `x ^ ESC`, run with the flag cleared. -/
theorem exec_cUnescape {s : State} {x : Byte} (he : s.esc = true) (hd : x ≠ s.cfg.delim) :
    exec (.cUnescape x) s = exec (selectField s (x ^^^ s.cfg.esc)) { s with esc := false } := by
  have hbyte : logicalByte s.cfg s.esc x = x ^^^ s.cfg.esc := if_pos he
  rw [← selectByte_escaped hd he, exec_selectByte_of_completes (completesByte_iff.mpr ⟨hd, .inl he⟩), hbyte,
    dispatchField_eq, selectField_esc]

/-- Inside the invariant the row that a logical byte selects completes, and it leaves the escape flag alone. -/
theorem DecoderInv.exec_selectField_next {s : State} (h : DecoderInv s) (b : Byte) :
    ∃ t, exec (selectField s b) s = .next t ∧ t.esc = s.esc := by
  obtain ⟨t, ht⟩ := h.exists_fieldStep b
  rw [← dispatchField_eq]
  exact ⟨t, ht.dispatchField_eq, ht.esc_eq⟩

end Sys2Proof.Machine

namespace Sys2Proof

open Machine

/-- Settles O10: by `exec_cUnescape` the row is that of the recovered byte, which completes because clearing the flag
keeps the invariant. -/
theorem unescapeRunsFieldRowOfRecoveredByte : Obligations.UnescapeRunsFieldRowOfRecoveredByte := by
  intro s x hinv he hd
  refine ⟨?_, fun rest hin => ?_⟩
  · have hclear : DecoderInv { s with esc := false } := hinv.congr false s.eventQ s.input s.sampled
    obtain ⟨t, ht, hesc⟩ := hclear.exec_selectField_next (x ^^^ s.cfg.esc)
    exact ⟨t, (exec_cUnescape he hd).trans ht, hesc, ht⟩
  · rw [step_byteWord hinv.config hin, selectByte_escaped hd he]
    exact exec_cUnescape (s := { s with input := rest }) he hd

/-- Settles O8: C.DELIM is `startFrame`, whatever the cursor and the flag, and `step_delim` is the same at an edge. -/
theorem delimiterStartsFrame : Obligations.DelimiterStartsFrame := by
  intro s
  refine ⟨congrArg Host.Outcome.next (startFrame_eq s), fun rest ha hin => ?_⟩
  rw [step_delim ha hin, startFrame_eq]

/-- Settles O9: the row's only condition is that no prefix is pending, and `step_marker` is the same at an edge. -/
theorem escapeMarkerSetsFlag : Obligations.EscapeMarkerSetsFlag := fun _ he =>
  ⟨execCEscSet_next.mpr ⟨he, rfl⟩, fun _ ha hin => step_marker ha hin he⟩

end Sys2Proof
end

section
/-! PROOFS. The field dispatch (41_field_dispatch.md R60 to R72): the edge whose byte completes a logical byte runs that
byte's field row, and what the row leaves is R60's consume function, R70's next cursor and, at the checksum byte, a
complete frame. -/

namespace Sys2Proof.Machine

/-! ## The edge that completes a logical byte -/

section

variable {s t : State} {rest : List Stimulus} {b : Byte}

theorem PresentsByte.rest_eq {d : Stimulus} {rest' : List Stimulus} (hb : PresentsByte s rest b)
    (hin : s.input = d :: rest') : rest' = rest := by
  obtain ⟨-, x, hin', -⟩ := hb
  exact (List.cons.inj (hin.symm.trans hin')).2

/-- R49, R52: raw or after a marker, the completed byte runs its field row, with `esc` cleared. -/
theorem step_presentsByte_next (hb : PresentsByte s rest b) :
    step s = .next t ↔ FieldStep { s with input := rest, esc := false } b t := by
  obtain ⟨ha, x, hin, hx, rfl⟩ := hb
  rw [step_completing ha hin hx]
  exact dispatchField_next

/-- R18: an edge that reports an event completes a logical byte, since every other edge and row reports NONE. -/
theorem exists_fieldStep_of_event {iw : InputWord} (hin : s.input = .edge iw :: rest) (h : step s = .next t)
    (hev : t.eventQ ≠ .none) :
    ∃ b, PresentsByte s rest b ∧ FieldStep { s with input := rest, esc := false } b t := by
  cases transition_of_step h with
  | @field rest' b _ hb hf =>
    obtain rfl := hb.rest_eq hin
    exact ⟨b, hb, hf⟩
  | read hin' hd =>
    obtain ⟨rfl, -⟩ := List.cons.inj (hin.symm.trans hin')
    exact absurd rfl (hd iw)
  | reset | clear | idleCycle | emptyQueue | delimiter | marker => exact absurd rfl hev

/-! ## R60's consume function -/

theorem consume_delim (s : State) :
    consume s s.cfg.delim = ({ s with cursor := .awaitingId, esc := false, crc := s.cfg.crcInit }, .none) :=
  if_pos rfl

theorem consume_marker (hd : s.cfg.esc ≠ s.cfg.delim) (he : s.esc = false) :
    consume s s.cfg.esc = ({ s with esc := true }, .none) := by
  simp [consume, hd, he]

theorem consume_completing {x : Byte} (hx : completesByte s.cfg s.esc x = true) :
    consume s x = fieldConsume { s with esc := false } (logicalByte s.cfg s.esc x) := by
  obtain ⟨hd, hx⟩ := completesByte_iff.mp hx
  cases he : s.esc with
  | true => simp [consume, logicalByte, hd, he]
  | false =>
    have hstay : { s with esc := false } = s := by rw [← he]
    have hne : x ≠ s.cfg.esc := by simpa [he] using hx
    rw [hstay]
    simp [consume, logicalByte, hd, he, hne]

/-- R60 steps 3 and 4: a field row is R60's dispatch, with its event registered. -/
theorem FieldStep.eq_fieldConsume (h : FieldStep s b t) :
    t = { (fieldConsume s b).1 with eventQ := (fieldConsume s b).2 } := by
  unfold fieldConsume
  cases h with
  | payload hc _ hl => simp [hc, hl.ne]
  | payloadLast hc _ hl => simp [hc, hl]
  | id hc => simp [hc]
  | len hc hb hm => simpa [hc, hm.not_gt] using hb
  | lenZero hc hb => simp [hc, hb]
  | lenOverflow hc hm => simp [hc, hm]
  | checksumOk hc hb => simp [hc, hb]
  | checksumBad hc hb => simp [hc, hb]
  | idleNoise hc => simp [hc]

/-! ## R70's table -/

/-- The column of R70's table for a logical byte `b`: where the cursor of `s` goes. -/
def fieldCursor (s : State) (b : Byte) : Cursor :=
  match s.cursor with
  | .idle => .idle
  | .awaitingId => .awaitingLength
  | .awaitingLength => if s.cfg.maxp < b.toNat then .idle else if b = 0 then .awaitingChecksum else .payload 0
  | .payload i => if i + 1 = s.length.toNat then .awaitingChecksum else .payload (i + 1)
  | .awaitingChecksum => .idle

theorem fieldConsume_cursor (s : State) (b : Byte) : (fieldConsume s b).1.cursor = fieldCursor s b := by
  cases hc : s.cursor with
  | awaitingLength =>
    simp only [fieldConsume, fieldCursor, hc]
    split_ifs <;> rfl
  | idle | awaitingId | payload | awaitingChecksum => simp only [fieldConsume, fieldCursor, hc]

theorem FieldStep.cursor_eq (h : FieldStep s b t) : t.cursor = fieldCursor s b := by
  rw [h.eq_fieldConsume]
  exact fieldConsume_cursor s b

/-! ## The field writes -/

theorem storesCell_write (m : Memory) (i : Nat) (b : Byte) : StoresCell m (Memory.write m i b) i b :=
  ⟨Memory.read_write_same m i b, fun _ ha => Memory.read_write_other m b ha⟩

/-- R67, R68, R72: only the checksum byte reports a frame, and it holds the fields as they are. -/
theorem FieldStep.eq_of_frame_event (h : FieldStep s b t) (hev : t.eventQ = .frameOk ∨ t.eventQ = .crcMismatch) :
    s.cursor = .awaitingChecksum ∧ (t.eventQ = .frameOk ↔ b = crcFinal s.cfg s.crc) ∧
      t = { s with held := true, cursor := .idle, eventQ := t.eventQ } := by
  cases h with
  | checksumOk hc hb => exact ⟨hc, ⟨fun _ => hb, fun _ => rfl⟩, rfl⟩
  | checksumBad hc hb => exact ⟨hc, ⟨nofun, fun h => absurd h hb⟩, rfl⟩
  | _ => simp at hev

/-! ## A frame header -/

theorem frameHeader_eq (c : Config) (id len : Byte) :
    frameHeader c id len = c.delim :: [id, len].flatMap (stuff c) := by
  simp [frameHeader]

end

end Sys2Proof.Machine

namespace Sys2Proof

open Machine

/-- Settles O11: the cell is `Memory.write`'s, and the row is chosen by `i + 1 < length`. -/
theorem payloadByteIsStoredAndCounted : Obligations.PayloadByteIsStoredAndCounted := fun s b i hc hi hl =>
  ⟨_, storesCell_write s.pl i b, execCPayload_next.mpr ⟨i, hc, hi, hl, rfl⟩,
    fun _ hb => (step_presentsByte_next hb).mpr (.payload hc hi hl)⟩

/-- Settles O12: the cell is `Memory.write`'s, and the row is chosen by `i + 1 = length`. -/
theorem lastPayloadByteLeadsToChecksum : Obligations.LastPayloadByteLeadsToChecksum := fun s b i hc hi hl =>
  ⟨_, storesCell_write s.pl i b, execCPayloadLast_next.mpr ⟨i, hc, hi, hl, rfl⟩,
    fun _ hb => (step_presentsByte_next hb).mpr (.payloadLast hc hi hl)⟩

/-- Settles O13: the id row, by `exec` and at the edge that completes its byte. -/
theorem idByteIsStoredAndEndsHeldPacket : Obligations.IdByteIsStoredAndEndsHeldPacket := fun _ _ hc =>
  ⟨execCId_next.mpr ⟨hc, rfl⟩, fun _ hb => (step_presentsByte_next hb).mpr (.id hc)⟩

/-- Settles O14: a length of at least 1 is not 0, so its row is neither C.LEN_ZERO nor C.LEN_OVERFLOW. -/
theorem validLengthStartsPayload : Obligations.ValidLengthStartsPayload := by
  intro s b hc hpos hm
  have hne : b ≠ 0 := by
    rintro rfl
    exact absurd hpos (by decide)
  exact ⟨execCLen_next.mpr ⟨⟨hc, hne, hm⟩, rfl⟩, fun _ hb => (step_presentsByte_next hb).mpr (.len hc hne hm)⟩

/-- Settles O15: the zero length row, by `exec` and at the edge that completes the zero. -/
theorem zeroLengthLeadsToChecksum : Obligations.ZeroLengthLeadsToChecksum := fun _ hc =>
  ⟨execCLenZero_next.mpr ⟨hc, rfl⟩, fun _ hb => (step_presentsByte_next hb).mpr (.lenZero hc rfl)⟩

/-- Settles O16: the row for a length above `MAXP`, which is an error entry and no field write. -/
theorem overlongLengthDiscardsFrame : Obligations.OverlongLengthDiscardsFrame := fun _ _ hc hm =>
  ⟨execCLenOverflow_next.mpr ⟨⟨hc, hm⟩, rfl⟩, fun _ hb => (step_presentsByte_next hb).mpr (.lenOverflow hc hm)⟩

/-- Settles O17: the row for a matching checksum byte. -/
theorem matchingChecksumCompletesFrame : Obligations.MatchingChecksumCompletesFrame := fun _ _ hc hk =>
  ⟨execCChecksumOk_next.mpr ⟨⟨hc, hk⟩, rfl⟩, fun _ hb => (step_presentsByte_next hb).mpr (.checksumOk hc hk)⟩

/-- Settles O18: the row for any other checksum byte. -/
theorem wrongChecksumReportsMismatch : Obligations.WrongChecksumReportsMismatch := fun _ _ hc hk =>
  ⟨execCChecksumBad_next.mpr ⟨⟨hc, hk⟩, rfl⟩, fun _ hb => (step_presentsByte_next hb).mpr (.checksumBad hc hk)⟩

/-- Settles O19: the row for a logical byte in IDLE. -/
theorem idleNoiseChangesNothing : Obligations.IdleNoiseChangesNothing := fun _ b hc =>
  ⟨(execCIdleNoise_next (b := b)).mpr ⟨hc, rfl⟩, fun _ hb => (step_presentsByte_next hb).mpr (.idleNoise hc)⟩

/-- Settles O37: the two agree on each kind of wire byte, a completing one by `FieldStep.eq_fieldConsume`. -/
theorem stepOnByteIsConsume : Obligations.StepOnByteIsConsume := by
  intro s x rest hinv hin
  rcases byte_cases s.cfg s.esc x with rfl | ⟨he, rfl, hd⟩ | hx
  · rw [step_delim hinv.config hin, consume_delim { s with input := rest }]
    rfl
  · rw [step_marker hinv.config hin he, consume_marker (s := { s with input := rest }) hd he]
  · obtain ⟨t, ht⟩ := (hinv.congr false s.eventQ rest s.sampled).exists_fieldStep (logicalByte s.cfg s.esc x)
    rw [step_completing hinv.config hin hx, ht.dispatchField_eq, consume_completing (s := { s with input := rest }) hx]
    exact congrArg _ ht.eq_fieldConsume

/-- Settles O39: one column of the table for each kind of wire byte, and `fieldCursor` is the column of logical
bytes. -/
theorem cursorFollowsTransitionTable : Obligations.CursorFollowsTransitionTable := by
  intro s x rest hinv hin
  rcases byte_cases s.cfg s.esc x with rfl | ⟨he, rfl, hd⟩ | hx
  · exact ⟨_, step_delim hinv.config hin, fun _ => rfl, fun hne => absurd rfl hne,
      fun hx => absurd rfl (completesByte_iff.mp hx).1⟩
  · exact ⟨_, step_marker hinv.config hin he, fun h => absurd h hd, fun _ _ _ => ⟨rfl, rfl⟩,
      fun hx => by simp [completesByte, he] at hx⟩
  · obtain ⟨hd, hx'⟩ := completesByte_iff.mp hx
    obtain ⟨t, ht⟩ := (hinv.congr false s.eventQ rest s.sampled).exists_fieldStep (logicalByte s.cfg s.esc x)
    exact ⟨t, (step_completing hinv.config hin hx).trans ht.dispatchField_eq, fun h => absurd h hd,
      fun _ h he => absurd hx' (by simp [h, he]), fun _ => ht.cursor_eq⟩

/-- Settles O46: the reporting row is the checksum's, and at AWAITING_CHECKSUM the invariant says that the frame is
complete and what the accumulator covers. -/
theorem reportedFrameIsCompleteAndChecked : Obligations.ReportedFrameIsCompleteAndChecked := by
  intro s t iw rest hinv hin hstep hev
  have hne : t.eventQ ≠ .none := by rcases hev with h | h <;> simp [h]
  obtain ⟨b, hb, hf⟩ := exists_fieldStep_of_event hin hstep hne
  obtain ⟨hc, hok, heq⟩ := hf.eq_of_frame_event hev
  obtain ⟨hid, hlen, hcells, hcrc⟩ := (frameInv_awaitingChecksum hc).mp hinv.frame
  rw [hcrc] at hok
  rw [heq]
  exact ⟨hid, hlen, hinv.lengthBound hlen, hcells, rfl, b, hb, hok⟩

/-- Settles O51: after the delimiter, from any state, the id row and then the overlong length row, which leaves
`length` and `PL` alone; the id byte ended any held packet. -/
theorem overlongHeaderIsRejected : Obligations.OverlongHeaderIsRejected := by
  intro s id len rest ha hm hin
  rw [frameHeader_eq] at hin ⊢
  have hrows : FieldRun (startFrame s) [id, len] _ := .cons (.id rfl) (.cons (.lenOverflow rfl hm) (.nil _))
  have hrun := (run_succ (step_delim ha hin)).trans (hrows.run_flatMap_stuff rfl ha rest)
  exact ⟨_, hrun, rfl, rfl, rfl, rfl, rfl, rfl, rfl⟩

end Sys2Proof
end

section
/-! PROOFS. The checksum (42_checksum.md R80 to R83): the reference instance as its printed table, what one wire byte
does to the accumulator, and the states that a run from reset reaches. -/

namespace Sys2Proof.Machine

/-! ## The reference table (R80) -/

/-- R80's loop, run on each byte in turn, gives the entries that the spec prints. -/
theorem referenceCrcTable_eq_map :
    referenceCrcTable = (List.range 256).map fun k => crcBits 0x07 8 (BitVec.ofNat 8 k) := by
  decide +kernel

theorem referenceCrcTable_getElem? (v : Byte) : referenceCrcTable[v.toNat]? = some (crcBits 0x07 8 v) := by
  rw [referenceCrcTable_eq_map, List.getElem?_map, List.getElem?_range v.isLt, Option.map_some, BitVec.ofNat_toNat,
    BitVec.setWidth_eq]

/-! ## One wire byte (R81, R83) -/

/-- The accumulator that the field row of logical byte `b` leaves, by the cursor of `s`. -/
def fieldCrc (s : State) (b : Byte) : Byte :=
  match s.cursor with
  | .awaitingId | .payload _ => crcStep s.cfg s.crc b
  | .awaitingLength => if s.cfg.maxp < b.toNat then s.crc else crcStep s.cfg s.crc b
  | .idle | .awaitingChecksum => s.crc

theorem fieldConsume_crc (s : State) (b : Byte) : (fieldConsume s b).1.crc = fieldCrc s b := by
  cases hc : s.cursor with
  | awaitingLength =>
    simp only [fieldConsume, fieldCrc, hc]
    split_ifs <;> rfl
  | idle | awaitingId | payload | awaitingChecksum => simp only [fieldConsume, fieldCrc, hc]

/-! ## Runs -/

/-- What every step keeps holds at the end of a run that completes. -/
theorem run_induction {M : Host.Core} {P : M.State → Prop} (hstep : ∀ s t, P s → M.step s = .next t → P t)
    {k : Nat} {s t : M.State} (hs : P s) (h : M.run k s = .next t) : P t := by
  induction k generalizing s with
  | zero =>
    cases h
    exact hs
  | succ k ih =>
    cases hu : M.step s with
    | next u =>
      rw [run_succ hu] at h
      exact ih (hstep s u hs hu) h
    | fault r => simp [Host.Core.run, hu] at h
    | refused r => simp [Host.Core.run, hu] at h

/-- The invariant holds in every state that a run from reset reaches. -/
theorem decoderInv_of_run {c : Config} (hc : c.admitted = true) {w : List Stimulus} {k : Nat} {t : State}
    (h : Host.Core.run core k { State.resetWith c with input := w } = .next t) : DecoderInv t :=
  run_induction (M := core) (P := DecoderInv) stepKeepsInvariant (decoderInv_resetWith hc w none) h

end Sys2Proof.Machine

namespace Sys2Proof

open Machine

/-- Settles O31: the step depends on `acc ^ b` only, and over the 256 bytes it is the table; the final exclusive OR is
with 0. -/
theorem referenceChecksumIsPrintedTable : Obligations.ReferenceChecksumIsPrintedTable :=
  ⟨fun acc b => referenceCrcTable_getElem? (acc ^^^ b), fun _ => BitVec.xor_zero, rfl, by decide +kernel⟩

/-- Settles O41: the step is R60's consume function, which restarts the accumulator at a delimiter, keeps it at a marker
and takes it to `fieldCrc` at a byte that completes a logical byte. -/
theorem accumulatorStepsOncePerFieldByte : Obligations.AccumulatorStepsOncePerFieldByte := by
  intro s x rest hinv hin
  refine ⟨_, stepOnByteIsConsume s x rest hinv hin, ?_, ?_, fun hx => ?_⟩
  · rintro rfl
    rw [consume_delim { s with input := rest }]
  · rintro hd rfl he
    rw [consume_marker (s := { s with input := rest }) hd he]
  · rw [consume_completing (s := { s with input := rest }) hx]
    exact fieldConsume_crc _ _

/-- Settles O47: a run from reset keeps the invariant, and at AWAITING_CHECKSUM the invariant says that the cells are
written and what the accumulator covers. -/
theorem accumulatorCoversReceivedFrame : Obligations.AccumulatorCoversReceivedFrame := by
  intro c w k t hc hrun hcur
  obtain ⟨-, -, hcells, hcrc⟩ := (frameInv_awaitingChecksum hcur).mp (decoderInv_of_run hc hrun).frame
  exact ⟨hcrc, Memory.length_take hcells⟩

end Sys2Proof
end

section
/-! PROOFS. The interface operations (43_interface_ops.md R91 to R97): the edges that consume no byte, the host's reads
of the ports, and the transaction view of a stream of bytes with idle cycles among them. -/

namespace Sys2Proof.Machine

/-! ## The edges without a byte (R91, R92) -/

theorem exec_clear (s : State) :
    exec .clear s = .next { s with cursor := .idle, esc := false, crc := s.cfg.crcInit, eventQ := .none } := rfl

theorem exec_idleCycle (s : State) : exec .idleCycle s = .next { s with eventQ := .none } := rfl

section

variable {s : State} {iw : InputWord} {rest : List Stimulus}

theorem step_clear (ha : s.cfg.admitted = true) (hin : s.input = .edge iw :: rest) (hr : iwRst iw = false)
    (hc : iwClear iw = true) :
    step s = .next
      { s with input := rest, cursor := .idle, esc := false, crc := s.cfg.crcInit, eventQ := .none } := by
  rw [step_cons ha hin, decode_edge, selectEdge_of_clear hr hc]
  exact exec_clear _

theorem step_idleCycle (ha : s.cfg.admitted = true) (hin : s.input = .edge iw :: rest) (hr : iwRst iw = false)
    (hc : iwClear iw = false) (hv : iwValid iw = false) :
    step s = .next { s with input := rest, eventQ := .none } := by
  rw [step_cons ha hin, decode_edge, selectEdge_of_not_valid hr hc hv]
  exact exec_idleCycle _

theorem step_idleEdge (ha : s.cfg.admitted = true) (hin : s.input = idleEdge :: rest) :
    step s = .next { s with input := rest, eventQ := .none } :=
  step_idleCycle ha hin rfl rfl rfl

end

/-! ## The read port (R96, R35) -/

theorem plData_of_le {s : State} {a : Byte} (h : s.cfg.maxp ≤ a.toNat) : plData s a = .error .plAddrOutOfRange :=
  if_pos h

theorem plData_of_lt {s : State} {a : Byte} (h : a.toNat < s.cfg.maxp) : plData s a = .ok (outCell s.pl a.toNat) :=
  if_neg h.not_ge

/-! ## The consume function does not look at the queue or the event -/

theorem fieldConsume_input_eventQ (s : State) (w : List Stimulus) (e : Event) (b : Byte) :
    (fieldConsume { s with input := w, eventQ := e } b).1 =
      { (fieldConsume s b).1 with input := w, eventQ := e } := by
  cases hc : s.cursor with
  | awaitingLength =>
    simp only [fieldConsume, hc]
    split_ifs <;> rfl
  | idle | awaitingId | payload | awaitingChecksum => simp only [fieldConsume, hc]

theorem consume_input_eventQ (s : State) (w : List Stimulus) (e : Event) (x : Byte) :
    (consume { s with input := w, eventQ := e } x).1 = { (consume s x).1 with input := w, eventQ := e } := by
  rcases byte_cases s.cfg s.esc x with rfl | ⟨he, rfl, hd⟩ | hx
  · rw [consume_delim s]
    exact congrArg Prod.fst (consume_delim { s with input := w, eventQ := e })
  · rw [consume_marker hd he, consume_marker (s := { s with input := w, eventQ := e }) hd he]
  · rw [consume_completing hx, consume_completing (s := { s with input := w, eventQ := e }) hx]
    exact fieldConsume_input_eventQ { s with esc := false } w e _

theorem consumeAll_input_eventQ (s : State) (w : List Stimulus) (e : Event) (xs : List Byte) :
    consumeAll { s with input := w, eventQ := e } xs = { consumeAll s xs with input := w, eventQ := e } := by
  induction xs generalizing s with
  | nil => rfl
  | cons x xs ih => exact (congrArg (consumeAll · xs) (consume_input_eventQ s w e x)).trans (ih _)

/-! ## The transaction view (R93) -/

/-- One edge of a stream: a wire byte, or an idle cycle. -/
def streamEdge : Option Byte → Stimulus
  | some x => .edge (byteWord x)
  | none => idleEdge

/-- R93 for one edge: a byte is consumed, an idle cycle leaves everything but the event (R91). -/
theorem step_streamEdge {s : State} {o : Option Byte} {rest : List Stimulus} (hinv : DecoderInv s)
    (hin : s.input = streamEdge o :: rest) :
    ∃ e, step s = .next { consumeAll s o.toList with input := rest, eventQ := e } := by
  cases o with
  | none => exact ⟨.none, step_idleEdge hinv.config hin⟩
  | some x =>
    have hstep := stepOnByteIsConsume s x rest hinv hin
    rw [consume_input_eventQ s rest s.eventQ x] at hstep
    exact ⟨_, hstep⟩

/-- R93: a stream runs as the fold of the consume function over its bytes, whatever the last event is. -/
theorem run_stream {s : State} {os : List (Option Byte)} {rest : List Stimulus} (hinv : DecoderInv s)
    (hin : s.input = os.map streamEdge ++ rest) :
    ∃ e, Host.Core.run core os.length s =
      .next { consumeAll s os.reduceOption with input := rest, eventQ := e } := by
  induction os generalizing s with
  | nil => exact ⟨s.eventQ, by subst hin; rfl⟩
  | cons o os ih =>
    obtain ⟨e, hstep⟩ := step_streamEdge hinv hin
    obtain ⟨e', hrun⟩ := ih (stepKeepsInvariant _ _ hinv hstep) rfl
    refine ⟨e', (run_succ hstep).trans (hrun.trans ?_)⟩
    rw [consumeAll_input_eventQ]
    cases o <;> rfl

end Sys2Proof.Machine

namespace Sys2Proof

open Machine

/-- Settles O6: CLEAR is one arm of `exec`, and at an edge with `rst = 0` it goes before any byte (R49). -/
theorem clearAbandonsFrameAndKeepsFields : Obligations.ClearAbandonsFrameAndKeepsFields := fun s =>
  ⟨exec_clear s, fun _ _ => step_clear⟩

/-- Settles O7: IDLE_CYCLE is one arm of `exec`, and an edge with none of the three bits set selects it (R49). -/
theorem idleCycleOnlyEndsEvent : Obligations.IdleCycleOnlyEndsEvent := fun s =>
  ⟨exec_idleCycle s, fun _ _ => step_idleCycle⟩

/-- Settles O20: the port is the pair of `id` and its mark. -/
theorem readIdShowsWrittenId : Obligations.ReadIdShowsWrittenId := fun s =>
  ⟨answerRead_eq _ s, fun hw => congrArg (PortRead.mk s.id) hw, (outId_written s).trans, fun _ => step_cons⟩

/-- Settles O21: the port is the pair of `length` and its mark, and the invariant bounds a written length. -/
theorem readLengthShowsWrittenLength : Obligations.ReadLengthShowsWrittenLength := fun s =>
  ⟨answerRead_eq _ s, fun hw => congrArg (PortRead.mk s.length) hw, (outLength_written s).trans,
    fun hinv hw => hinv.lengthBound hw, fun _ => step_cons⟩

/-- Settles O22: below `MAXP` the port shows `outCell`, which is written exactly where the buffer lists the cell. -/
theorem readPayloadShowsWrittenCell : Obligations.ReadPayloadShowsWrittenCell := by
  intro s a
  refine ⟨fun hle => ?_, fun hlt => ?_, fun _ => step_cons⟩
  · exact ⟨plData_of_le hle, execReadPayload_fault.mpr ⟨hle, rfl⟩⟩
  · exact ⟨outCell s.pl a.toNat, plData_of_lt hlt, execReadPayload_next.mpr ⟨hlt, rfl⟩,
      fun hcell => by simp [hcell], fun _ => outCell_some⟩

/-- Settles O23: the five ports of `statusPorts` are functions of the registers, in every state. -/
theorem readStatusAlwaysAnswers : Obligations.ReadStatusAlwaysAnswers := fun s =>
  ⟨answerRead_eq (.status (statusPorts s)) s, fun _ => step_cons⟩

/-- Settles O38: `run_stream`, with the queue of the starting state set to what is left of it. -/
theorem streamIsFoldOfConsume : Obligations.StreamIsFoldOfConsume := by
  intro s ws rest hinv hin
  obtain ⟨e, hrun⟩ := run_stream hinv hin
  refine ⟨_, hrun, ?_⟩
  rw [consumeAll_input_eventQ s rest s.eventQ]
  rfl

end Sys2Proof
end

section
/-! PROOFS. Exceptions (60_exceptions.md R100 to R108): which host actions complete, which byte reports which event, and
that a delimiter ends the influence of everything before it. -/

namespace Sys2Proof.Machine

/-! ## What faults (R100, R35) -/

section

variable {s : State} {f : Fault}

theorem whenSelected_ne_fault {sel : Prop} [Decidable sel] {t : State} : whenSelected sel t ≠ .fault f := by
  by_cases h : sel
  · rw [whenSelected_pos h]
    nofun
  · rw [whenSelected_neg h]
    nofun

/-- R100: a field row completes or is not selected. -/
theorem exec_ne_fault_of_isField {i : Instr} (hi : i.isField = true) : exec i s ≠ .fault f := by
  cases i with
  | cId | cLen | cLenZero | cLenOverflow | cChecksumOk | cChecksumBad | cIdleNoise => exact whenSelected_ne_fault
  | cPayload | cPayloadLast =>
    simp only [exec, execCPayload, execCPayloadLast]
    split
    · exact whenSelected_ne_fault
    · nofun
  | reset | clear | idleCycle | cDelim | cEscSet | cUnescape | readId | readLength | readPayload | readStatus =>
    cases hi

theorem execCUnescape_ne_fault {x : Byte} : execCUnescape x s ≠ .fault f := by
  unfold execCUnescape
  split
  · rw [dispatchField_eq]
    exact exec_ne_fault_of_isField (isField_of_fieldByte (fieldByte_selectField _ _))
  · nofun

/-- R100, R35: the one operation that faults is a payload read at an address with no cell. -/
theorem eq_readPayload_of_exec_fault {i : Instr} (h : exec i s = .fault f) :
    f = .plAddrOutOfRange ∧ ∃ a, i = .readPayload a ∧ s.cfg.maxp ≤ a.toNat := by
  cases i with
  | readPayload a =>
    obtain ⟨ha, hf⟩ := execReadPayload_fault.mp h
    exact ⟨hf, a, rfl, ha⟩
  | cEscSet => exact absurd h whenSelected_ne_fault
  | cUnescape => exact absurd h execCUnescape_ne_fault
  | cPayload | cPayloadLast | cId | cLen | cLenZero | cLenOverflow | cChecksumOk | cChecksumBad | cIdleNoise =>
    exact absurd h (exec_ne_fault_of_isField rfl)
  | reset | clear | idleCycle | cDelim | readId | readLength | readStatus => cases h

/-- No input word selects a read, since what is selected encodes to an edge again (R47). -/
theorem eq_readPayload_of_decode {d : Stimulus} {a : Byte} (h : decode s d = .readPayload a) : d = .readPayload a := by
  cases d with
  | edge iw =>
    have henc := encodeOfDecodeKeepsReadBits s iw
    rw [h] at henc
    cases henc
  | readPayload b =>
    cases h
    rfl
  | readId | readLength | readStatus => cases h

theorem exists_exec_fault_of_step (h : step s = .fault f) :
    ∃ d rest, s.input = d :: rest ∧ exec (decode s d) { s with input := rest } = .fault f := by
  by_cases ha : s.cfg.admitted = true
  · cases hin : s.input with
    | nil =>
      rw [step_nil ha hin] at h
      cases h
    | cons d rest => exact ⟨d, rest, rfl, (step_cons ha hin).symm.trans h⟩
  · rw [step_of_not_admitted ha] at h
    cases h

/-! ## What completes (R100) -/

theorem DecoderInv.exists_step_edge {iw : InputWord} {rest : List Stimulus} (h : DecoderInv s)
    (hin : s.input = .edge iw :: rest) : ∃ t, step s = .next t := by
  cases hr : iwRst iw with
  | true =>
    rw [step_cons h.config hin, decode_edge, selectEdge_of_rst hr]
    exact ⟨_, execReset_eq _⟩
  | false =>
    cases hc : iwClear iw with
    | true => exact ⟨_, step_clear h.config hin hr hc⟩
    | false =>
      cases hv : iwValid iw with
      | true =>
        rw [← byteWord_iwByte hr hc hv] at hin
        exact ⟨_, stepOnByteIsConsume s _ rest h hin⟩
      | false => exact ⟨_, step_idleCycle h.config hin hr hc hv⟩

end

/-! ## The event of a logical byte (R66 to R68, R101, R102) -/

section

variable {s t : State} {b : Byte}

/-- The event that the field row of logical byte `b` reports, by the cursor of `s`. -/
def fieldEvent (s : State) (b : Byte) : Event :=
  match s.cursor with
  | .awaitingLength => if s.cfg.maxp < b.toNat then .lenOverflow else .none
  | .awaitingChecksum => if b = crcFinal s.cfg s.crc then .frameOk else .crcMismatch
  | .idle | .awaitingId | .payload _ => .none

theorem fieldConsume_event (s : State) (b : Byte) : (fieldConsume s b).2 = fieldEvent s b := by
  cases hc : s.cursor with
  | awaitingLength =>
    simp only [fieldConsume, fieldEvent, hc]
    split_ifs <;> rfl
  | idle | awaitingId | payload | awaitingChecksum => simp only [fieldConsume, fieldEvent, hc]

theorem FieldStep.eventQ_eq (h : FieldStep s b t) : t.eventQ = fieldEvent s b := by
  rw [h.eq_fieldConsume]
  exact fieldConsume_event s b

theorem fieldEvent_eq_lenOverflow :
    fieldEvent s b = .lenOverflow ↔ s.cursor = .awaitingLength ∧ s.cfg.maxp < b.toNat := by
  cases hc : s.cursor with
  | awaitingLength | awaitingChecksum => simp [fieldEvent, hc, ite_eq_iff]
  | idle | awaitingId | payload => simp [fieldEvent, hc]

theorem fieldEvent_eq_crcMismatch :
    fieldEvent s b = .crcMismatch ↔ s.cursor = .awaitingChecksum ∧ b ≠ crcFinal s.cfg s.crc := by
  cases hc : s.cursor with
  | awaitingLength | awaitingChecksum => simp [fieldEvent, hc, ite_eq_iff]
  | idle | awaitingId | payload => simp [fieldEvent, hc]

theorem fieldEvent_eq_frameOk :
    fieldEvent s b = .frameOk ↔ s.cursor = .awaitingChecksum ∧ b = crcFinal s.cfg s.crc := by
  cases hc : s.cursor with
  | awaitingLength | awaitingChecksum => simp [fieldEvent, hc, ite_eq_iff]
  | idle | awaitingId | payload => simp [fieldEvent, hc]

/-- R67, R107: a row that reports an event is the end of its frame. -/
theorem FieldStep.cursor_of_event (h : FieldStep s b t) (hev : t.eventQ ≠ .none) : t.cursor = .idle := by
  cases h with
  | lenOverflow | checksumOk | checksumBad => rfl
  | payload | payloadLast | id | len | lenZero | idleNoise => exact absurd rfl hev

/-- R18: an event that the field rows report at cursor `c` for the bytes in `P` is reported by exactly the edges that
complete such a byte there. -/
theorem eventQ_eq_iff_of_step {iw : InputWord} {rest : List Stimulus} {e : Event} {c : Cursor} {P : Byte → Prop}
    (hin : s.input = .edge iw :: rest) (h : step s = .next t) (he : e ≠ .none)
    (hrow : ∀ b, fieldEvent s b = e ↔ s.cursor = c ∧ P b) :
    t.eventQ = e ↔ s.cursor = c ∧ ∃ b, PresentsByte s rest b ∧ P b := by
  constructor
  · rintro rfl
    obtain ⟨b, hb, hf⟩ := exists_fieldStep_of_event hin h he
    obtain ⟨hc, hP⟩ := (hrow b).mp hf.eventQ_eq.symm
    exact ⟨hc, b, hb, hP⟩
  · rintro ⟨hc, b, hb, hP⟩
    have hf := (step_presentsByte_next hb).mp h
    exact hf.eventQ_eq.trans ((hrow b).mpr ⟨hc, hP⟩)

end

/-! ## What the bytes after a delimiter depend on (R108) -/

/-- The states agree on what decides the events, the cursor and the escape flag of the bytes to come: the accumulator
always, `length` while it counts payload bytes, and no other field of the frame. -/
structure SameReception (s t : State) : Prop where
  cfg : t.cfg = s.cfg
  cursor : t.cursor = s.cursor
  esc : t.esc = s.esc
  crc : t.crc = s.crc
  event : t.eventQ = s.eventQ
  input : t.input = s.input
  length : ∀ i, s.cursor = .payload i → t.length = s.length

section

variable {s t s' t' : State} {b x : Byte}

theorem FieldStep.crc_eq (h : FieldStep s b t) : t.crc = fieldCrc s b := by
  rw [h.eq_fieldConsume]
  exact fieldConsume_crc s b

/-- R61, R64: a row that leads to a payload byte runs at AWAITING_LENGTH and stores `length`, or at a payload byte and
leaves it. -/
theorem FieldStep.length_of_payload (h : FieldStep s b t) {j : Nat} (ht : t.cursor = .payload j) :
    (s.cursor = .awaitingLength ∨ ∃ i, s.cursor = .payload i) ∧
      t.length = if s.cursor = .awaitingLength then b else s.length := by
  cases h with
  | len hc => exact ⟨.inl hc, (if_pos hc).symm⟩
  | payload hc => exact ⟨.inr ⟨_, hc⟩, (if_neg (by simp [hc])).symm⟩
  | idleNoise hc => cases hc.symm.trans ht
  | payloadLast | id | lenZero | lenOverflow | checksumOk | checksumBad => cases ht

theorem SameReception.fieldCursor_eq (h : SameReception s t) (b : Byte) : fieldCursor t b = fieldCursor s b := by
  cases hc : s.cursor with
  | payload i => simp only [fieldCursor, h.cursor, hc, h.length i hc]
  | idle | awaitingId | awaitingLength | awaitingChecksum => simp only [fieldCursor, h.cursor, hc, h.cfg]

theorem SameReception.fieldStep (h : SameReception s t) (hs : FieldStep s b s') (ht : FieldStep t b t') :
    SameReception s' t' where
  cfg := by rw [hs.cfg_eq, ht.cfg_eq, h.cfg]
  cursor := by rw [hs.cursor_eq, ht.cursor_eq, h.fieldCursor_eq]
  esc := by rw [hs.esc_eq, ht.esc_eq, h.esc]
  crc := by simp only [hs.crc_eq, ht.crc_eq, fieldCrc, h.cursor, h.cfg, h.crc]
  event := by simp only [hs.eventQ_eq, ht.eventQ_eq, fieldEvent, h.cursor, h.cfg, h.crc]
  input := by rw [hs.input_eq, ht.input_eq, h.input]
  length j hj := by
    have hj' : t'.cursor = .payload j := by rwa [ht.cursor_eq, h.fieldCursor_eq, ← hs.cursor_eq]
    obtain ⟨hc, hl⟩ := hs.length_of_payload hj
    obtain ⟨-, hl'⟩ := ht.length_of_payload hj'
    rw [hl, hl', h.cursor]
    rcases hc with hc | ⟨i, hc⟩
    · rw [if_pos hc, if_pos hc]
    · rw [h.length i hc]

/-- R50: a delimiter leaves nothing of the two pasts but the configuration and the queue. -/
theorem sameReception_startFrame (hcfg : t.cfg = s.cfg) (hin : t.input = s.input) :
    SameReception (startFrame s) (startFrame t) :=
  ⟨hcfg, rfl, rfl, congrArg Config.crcInit hcfg, rfl, hin, nofun⟩

/-- R108 for one wire byte: each kind of byte answers from what the two states agree on. -/
theorem SameReception.step {rest : List Stimulus} (h : SameReception s t) (hs : DecoderInv s) (ht : DecoderInv t)
    (hin : s.input = .edge (byteWord x) :: rest) :
    ∃ s' t', step s = .next s' ∧ step t = .next t' ∧ SameReception s' t' ∧ s'.input = rest := by
  have hin' : t.input = .edge (byteWord x) :: rest := h.input.trans hin
  rcases byte_cases s.cfg s.esc x with rfl | ⟨he, rfl, -⟩ | hx
  · rw [← h.cfg] at hin'
    exact ⟨_, _, step_delim hs.config hin, step_delim ht.config hin', sameReception_startFrame h.cfg rfl, rfl⟩
  · rw [← h.cfg] at hin'
    exact ⟨_, _, step_marker hs.config hin he, step_marker ht.config hin' (h.esc.trans he),
      ⟨h.cfg, h.cursor, rfl, h.crc, rfl, rfl, h.length⟩, rfl⟩
  · have hx' : completesByte t.cfg t.esc x = true := by rwa [h.cfg, h.esc]
    have hb : logicalByte t.cfg t.esc x = logicalByte s.cfg s.esc x := by rw [h.cfg, h.esc]
    obtain ⟨s', hs'⟩ := (hs.congr false s.eventQ rest s.sampled).exists_fieldStep (logicalByte s.cfg s.esc x)
    obtain ⟨t', ht'⟩ := (ht.congr false t.eventQ rest t.sampled).exists_fieldStep (logicalByte s.cfg s.esc x)
    have hstep := step_completing ht.config hin' hx'
    rw [hb] at hstep
    have hready : SameReception { s with input := rest, esc := false } { t with input := rest, esc := false } :=
      ⟨h.cfg, h.cursor, rfl, h.crc, h.event, rfl, h.length⟩
    exact ⟨s', t', (step_completing hs.config hin hx).trans hs'.dispatchField_eq, hstep.trans ht'.dispatchField_eq,
      hready.fieldStep hs' ht', hs'.input_eq⟩

theorem SameReception.run {xs : List Byte} {rest : List Stimulus} {k : Nat} (h : SameReception s t)
    (hs : DecoderInv s) (ht : DecoderInv t) (hin : s.input = byteEdges xs ++ rest) (hk : k ≤ xs.length) :
    ∃ s' t', Host.Core.run core k s = .next s' ∧ Host.Core.run core k t = .next t' ∧ SameReception s' t' := by
  induction k generalizing s t xs with
  | zero => exact ⟨s, t, rfl, rfl, h⟩
  | succ k ih =>
    cases xs with
    | nil => cases hk
    | cons x xs =>
      obtain ⟨u, v, hu, hv, huv, hinu⟩ := h.step hs ht hin
      obtain ⟨s', t', hs', ht', h'⟩ :=
        ih huv (stepKeepsInvariant s u hs hu) (stepKeepsInvariant t v ht hv) hinu (Nat.le_of_succ_le_succ hk)
      exact ⟨s', t', (run_succ hu).trans hs', (run_succ hv).trans ht', h'⟩

end

end Sys2Proof.Machine

namespace Sys2Proof

open Machine

/-- Settles O36: inside the invariant every edge completes by `DecoderInv.exists_step_edge` and a read below `MAXP`
shows its cell; in any state the only operation that faults is a payload read, which no input word selects. -/
theorem onlyOutOfRangeReadStopsTheMachine : Obligations.OnlyOutOfRangeReadStopsTheMachine := by
  refine ⟨fun s hinv hread => ?_, fun s f hfault => ?_⟩
  · cases hin : s.input with
    | nil => exact ⟨_, step_nil hinv.config hin⟩
    | cons d rest =>
      cases d with
      | edge iw => exact hinv.exists_step_edge hin
      | readId | readLength | readStatus => exact ⟨_, step_cons hinv.config hin⟩
      | readPayload a =>
        exact ⟨_, (step_cons hinv.config hin).trans (execReadPayload_next.mpr ⟨hread a rest hin, rfl⟩)⟩
  · obtain ⟨d, rest, hin, hexec⟩ := exists_exec_fault_of_step hfault
    obtain ⟨hf, a, hd, hle⟩ := eq_readPayload_of_exec_fault hexec
    obtain rfl := eq_readPayload_of_decode hd
    exact ⟨hf, a, rest, hin, hle⟩

/-- Settles O44: an edge reports what `fieldEvent` says of the byte that it completes, and each row that reports an
event sets the cursor to IDLE. -/
theorem eventsComeOnlyFromTheirByte : Obligations.EventsComeOnlyFromTheirByte := by
  intro s t iw rest _ hin hstep
  refine ⟨eventQ_eq_iff_of_step hin hstep nofun fun _ => fieldEvent_eq_lenOverflow,
    eventQ_eq_iff_of_step hin hstep nofun fun _ => fieldEvent_eq_crcMismatch,
    eventQ_eq_iff_of_step hin hstep nofun fun _ => fieldEvent_eq_frameOk, fun hev => ?_⟩
  obtain ⟨_, -, hf⟩ := exists_fieldStep_of_event hin hstep hev
  exact hf.cursor_of_event hev

/-- Settles O48: the delimiter brings the two instances into `SameReception`, and every byte after it keeps them
there. -/
theorem delimiterForgetsThePast : Obligations.DelimiterForgetsThePast := by
  intro s t xs rest k hs ht hcfg hins hint hpos hk
  obtain ⟨k, rfl⟩ := Nat.exists_eq_add_of_le' hpos
  have hstep := step_delim hs.config hins
  have hstep' := step_delim ht.config (hcfg ▸ hint)
  have hsame := sameReception_startFrame (s := { s with input := byteEdges xs ++ rest })
    (t := { t with input := byteEdges xs ++ rest }) hcfg.symm rfl
  obtain ⟨s', t', hrun, hrun', h⟩ :=
    hsame.run (stepKeepsInvariant s _ hs hstep) (stepKeepsInvariant t _ ht hstep') rfl (Nat.le_of_succ_le_succ hk)
  exact ⟨s', t', (run_succ hstep).trans hrun, (run_succ hstep').trans hrun',
    h.event.symm, h.cursor.symm, h.esc.symm⟩

end Sys2Proof
end

section
/-! PROOFS. Reset (70_reset_and_hazards.md R120): by `exec` from every state and at any edge with `rst = 1`, the
registers go back to the reset state of the same configuration; the host's queue and sample are not registers. -/

namespace Sys2Proof.Machine

theorem exec_reset (s : State) :
    exec .reset s = .next { State.resetWith s.cfg with input := s.input, sampled := s.sampled } := rfl

/-- `rst` goes before every other bit of the edge (R49), so the registers of the state it finds do not matter. -/
theorem step_reset {s : State} {iw : InputWord} {rest : List Stimulus} (ha : s.cfg.admitted = true)
    (hin : s.input = .edge iw :: rest) (hr : iwRst iw = true) :
    step s = .next { State.resetWith s.cfg with input := rest, sampled := s.sampled } := by
  rw [step_cons ha hin, decode_edge, selectEdge_of_rst hr]
  exact exec_reset _

end Sys2Proof.Machine

namespace Sys2Proof

open Machine

/-- Settles O5: RESET answers with the reset state of the instance's own configuration, whose register values are
O33's. -/
theorem resetUnwritesFieldsAndIdles : Obligations.ResetUnwritesFieldsAndIdles := by
  intro s
  obtain ⟨-, hvalues⟩ := resetStateHoldsResetValues
  obtain ⟨hcfg, hcursor, hesc, hcrc, hheld, hevent, hid, hlength, hcells, -, -⟩ := hvalues s.cfg
  exact ⟨_, exec_reset s, fun _ _ => step_reset, hcursor, hesc, hcrc, hheld, hevent, hid, hlength, hcells, hcfg⟩

end Sys2Proof
end

section
/-! PROOFS. Refusal (log 8): a guarded row is refused exactly where its guard fails, and C.UNESCAPE and the reads are
refused nowhere else. -/

namespace Sys2Proof.Machine

/-- A guarded row is refused exactly where its guard decides to false. -/
theorem whenSelected_refused {sel : Prop} [Decidable sel] {t : State} :
    whenSelected sel t = .refused .operationNotSelected ↔ decide sel = false := by
  by_cases h : sel
  · rw [whenSelected_pos h]
    exact iff_of_false nofun (ne_false_of_eq_true (decide_eq_true h))
  · exact iff_of_true (whenSelected_neg h t) (decide_eq_false h)

end Sys2Proof.Machine

namespace Sys2Proof

open Machine

variable {s : State}

/-- R61 to R69: a field row's guard is its condition, in every state. -/
theorem exec_refused_of_isField {i : Instr} (hi : i.isField = true) :
    exec i s = .refused .operationNotSelected ↔ i.enabled s = false := by
  cases i with
  | cId | cLen | cLenZero | cLenOverflow | cChecksumOk | cChecksumBad | cIdleNoise => exact whenSelected_refused
  | cPayload | cPayloadLast =>
    simp only [exec, execCPayload, execCPayloadLast, Instr.enabled]
    cases s.cursor with
    | payload => exact whenSelected_refused
    | idle | awaitingId | awaitingLength | awaitingChecksum => exact iff_of_true rfl rfl
  | reset | clear | idleCycle | cDelim | cEscSet | cUnescape | readId | readLength | readPayload | readStatus =>
    cases hi

/-- R51: C.ESC_SET is refused exactly while an escape is pending. -/
theorem exec_cEscSet_refused :
    exec .cEscSet s = .refused .operationNotSelected ↔ Instr.cEscSet.enabled s = false := by
  refine whenSelected_refused.trans ?_
  cases he : s.esc <;> simp [Instr.enabled, he]

/-- R52: where C.UNESCAPE is selected, the row of the byte that it recovers completes. -/
theorem exec_cUnescape_refused {x : Byte} (hinv : DecoderInv s) :
    exec (.cUnescape x) s = .refused .operationNotSelected ↔ (Instr.cUnescape x).enabled s = false := by
  by_cases h : s.esc = true ∧ x ≠ s.cfg.delim
  · obtain ⟨⟨t, ht, -⟩, -⟩ := unescapeRunsFieldRowOfRecoveredByte s x hinv h.1 h.2
    rw [ht]
    exact iff_of_false nofun (ne_false_of_eq_true (decide_eq_true h))
  · exact iff_of_true (if_neg h) (decide_eq_false h)

/-- R96: a payload read answers or faults, and is never refused. -/
theorem exec_readPayload_ne_refused {a : Byte} {r : Refusal} : exec (.readPayload a) s ≠ .refused r := by
  change execReadPayload a s ≠ .refused r
  rcases Nat.lt_or_ge a.toNat s.cfg.maxp with ha | ha
  · rw [execReadPayload_next.mpr ⟨ha, rfl⟩]
    nofun
  · rw [execReadPayload_fault.mpr ⟨ha, rfl⟩]
    nofun

/-- Settles O4: the rows with a condition by their own lemmas above; every other row is always selected and is never
refused. -/
theorem rowIsRefusedExactlyWhereNotSelected : Obligations.RowIsRefusedExactlyWhereNotSelected := by
  intro s i hinv
  cases i with
  | cPayload | cPayloadLast | cId | cLen | cLenZero | cLenOverflow | cChecksumOk | cChecksumBad | cIdleNoise =>
    exact exec_refused_of_isField rfl
  | cEscSet => exact exec_cEscSet_refused
  | cUnescape => exact exec_cUnescape_refused hinv
  | readPayload => exact iff_of_false exec_readPayload_ne_refused nofun
  | reset | clear | idleCycle | cDelim | readId | readLength | readStatus => exact iff_of_false nofun nofun

end Sys2Proof
end

section
/-! PROOFS. The two-byte layout of an input word (log 10): the low byte and the three bits above it rebuild the word. -/

namespace Sys2Proof

theorem toNat_iwByte (iw : InputWord) : (iwByte iw).toNat = iw.toNat % 256 := by
  simp [iwByte]

/-- R40: an input word has 11 bits, so three are left above its low byte. -/
theorem toNat_highByte (iw : InputWord) :
    (BitVec.ofNat 8 (iw.toNat / 256)).toNat = iw.toNat / 256 ∧ iw.toNat / 256 < 8 := by
  have hiw := iw.isLt
  rw [BitVec.toNat_ofNat]
  omega

theorem inputWordOfBytes_of_lt {lo hi : Byte} {rest : List Byte} (h : hi.toNat < 8) :
    inputWordOfBytes (lo :: hi :: rest) = .ok (BitVec.ofNat 11 (hi.toNat * 256 + lo.toNat), rest) := if_pos h

theorem inputWordOfBytes_of_le {lo hi : Byte} {rest : List Byte} (h : 8 ≤ hi.toNat) :
    inputWordOfBytes (lo :: hi :: rest) = .error .noSuchBit := if_neg h.not_gt

/-- Settles O30: the quotient and the remainder by 256 rebuild the word; the two refusals are the branches of
reading. -/
theorem inputWordBytesReadBack : Obligations.InputWordBytesReadBack := by
  refine ⟨fun iw rest => ?_, fun _ _ _ => inputWordOfBytes_of_le, fun bytes hlen => ?_⟩
  · obtain ⟨hhigh, hlt⟩ := toNat_highByte iw
    refine (inputWordOfBytes_of_lt (hhigh.symm ▸ hlt)).trans ?_
    rw [hhigh, toNat_iwByte, Nat.div_add_mod', BitVec.ofNat_toNat, BitVec.setWidth_eq]
    rfl
  · match bytes, hlen with
    | [], _ | [_], _ => rfl

end Sys2Proof
end
